-- ==== Sys2Proof/Word.lean ====
section
/-! DEFINITION. The word types of the bridge and the container of four like things. -/

namespace Sys2Proof

/-- One byte, carried in one lane (00_scope.md, "Data and lanes"). -/
abbrev Byte := BitVec 8
/-- One 32-bit beat, four lanes, lane 0 in bits 7:0 (00_scope.md, "Data and lanes"). -/
abbrev Word := BitVec 32
/-- A 28-bit byte address of memory (00_scope.md, "Addresses"). -/
abbrev Addr := BitVec 28
/-- A line address, 0 to 8,388,607 (00_scope.md, "Addresses"). -/
abbrev Line := BitVec 23
/-- One bit per lane: byte enables, or the parity bits of a beat. -/
abbrev Lanes := BitVec 4
/-- The 16-bit argument of a mark (R153). -/
abbrev Arg := BitVec 16
/-- A master port, M0 to M3. -/
abbrev PortId := Fin 4
/-- A context, C0 to C3. -/
abbrev CtxId := Fin 4
/-- A staging slot, S0 to S47 (R53). -/
abbrev SlotId := Fin 48

/-- Four like things, one per context or one per port. -/
structure Four (α : Type) where
  m0 : α
  m1 : α
  m2 : α
  m3 : α
deriving DecidableEq, Repr

/-- The four indices, lowest first. -/
def four : List (Fin 4) := [0, 1, 2, 3]

/-- The `i`-th of four. -/
def Four.get {α : Type} (f : Four α) (i : Fin 4) : α :=
  match i with
  | 0 => f.m0
  | 1 => f.m1
  | 2 => f.m2
  | 3 => f.m3

/-- `f` with `a` as its `i`-th. -/
def Four.set {α : Type} (f : Four α) (i : Fin 4) (a : α) : Four α :=
  match i with
  | 0 => { f with m0 := a }
  | 1 => { f with m1 := a }
  | 2 => { f with m2 := a }
  | 3 => { f with m3 := a }

/-- Four times the same. -/
def Four.same {α : Type} (a : α) : Four α := ⟨a, a, a, a⟩

end Sys2Proof
end

