-- ==== Sys2Proof/Config.lean ====
section
/-! DEFINITION. What the part fixes once and for all (limits the spec names by number), and the free values. -/

namespace Sys2Proof

/-- A read set holds at most 24 lines (R29). -/
def Config.readSetLimit : Nat := 24
/-- The footprint of a bounded group never holds more than 8 lines (R31). -/
def Config.boundedLimit : Nat := 8
/-- The deepest nesting of levels (R8). -/
def Config.depthLimit : Nat := 6
/-- Counters that are 16 bits wide stop here (R5, R123). -/
def Config.countLimit : Nat := 65535
/-- The consecutive-abort counter saturates here (R130). -/
def Config.counterLimit : Nat := 15

/-- FREE VALUE. The orders that the part does not fix: the order of the abort requests one claim raises (R98) and
whether the Group Context Unit or the Contention Unit takes a tick first (R118). Read with `State.freeCount`,
a fresh value each time. Nothing is known of it. Log entry 8. -/
opaque Config.choice : Nat → Nat

end Sys2Proof
end

