-- ==== Sys2Proof/Syntax.lean ====
section
/-! DEFINITION. The commands of the bridge: one constructor per row of spec/opcode_table.json, with its operands. -/

namespace Sys2Proof

/-- One data beat of a write: enables, data and the master's parity bits (R145). -/
structure WriteBeat where
  en : Lanes
  data : Word
  par : Lanes
deriving DecidableEq, Repr

/-- The strap levels sampled at part reset (R173); `true` is high. -/
structure Straps where
  cfgp : PortId
  trkall : Bool
  jna : Bool
  jnb : Bool
deriving DecidableEq, Repr

/-- Every strap low: the levels that `State.reset` samples (DESIGN CHOICE, log entry 2). -/
def Straps.low : Straps := ⟨0, false, false, false⟩

/-- What may produce a tick: the divisor count reaching N (R119), or a part-clock sample that finds the TICK pin
high (R120). -/
inductive TickCause where
  | divisor
  | pinHigh
deriving DecidableEq, Repr

/-- A cycle as the pins show it: MnK, MnA and MnL, and beat by beat MnBE with, on a write, MnD and MnP (R144, R145).
On a write the beats may be fewer than the length, the others still to come. -/
structure RawCycle where
  kind : BitVec 3
  addr : Addr
  len : BitVec 2
  beats : List WriteBeat
deriving DecidableEq, Repr

/-- The burst length of a write (the code of MnL), and those of its beats that a command brings: all of them, or some
when they come with several commands (log entry 5). -/
structure WriteData where
  len : BitVec 2
  beats : List WriteBeat
deriving DecidableEq, Repr

/-- The commands. Every constructor is one row of spec/opcode_table.json. -/
inductive Instr where
  -- marks of the Group Context Unit, and the two marks that only read
  | markOpen (p : PortId) (arg : Arg)
  | markClose (p : PortId) (arg : Arg)
  | markDrop (p : PortId) (arg : Arg) (data : Word) (par : Lanes)
  | markRecAddr (p : PortId) (arg : Arg) (data : Word) (par : Lanes)
  | markStatus (p : PortId) (arg : Arg)
  | markGetCfg (p : PortId) (item : Arg)
  -- SETCFG, by item
  | setCfgRegion (p : PortId) (k : Fin 8) (data : Word) (par : Lanes)
  | setCfgPairing (p : PortId) (data : Word) (par : Lanes)
  | setCfgLifetime (p : PortId) (c : CtxId) (data : Word) (par : Lanes)
  | setCfgSlotCaps (p : PortId) (data : Word) (par : Lanes)
  | setCfgEscalation (p : PortId) (data : Word) (par : Lanes)
  | setCfgTickSource (p : PortId) (data : Word) (par : Lanes)
  | setCfgFaultMasks (p : PortId) (data : Word) (par : Lanes)
  | setCfgUndefinedItem (p : PortId) (item : Arg) (data : Word) (par : Lanes)
  -- memory cycles
  | memRead (p : PortId) (addr : Addr) (ens : List Lanes)
  | memWrite (p : PortId) (addr : Addr) (data : WriteData)
  | lockRead (p : PortId) (addr : Addr) (en : Lanes)
  | lockWrite (p : PortId) (addr : Addr) (beat : WriteBeat)
  | malformedCycle (p : PortId) (raw : RawCycle)
  -- resets
  | portReset (p : PortId)
  | partReset (straps : Straps)
  -- quiesce
  | qreqAsserted
  | qreqNegated
  -- time
  | tick (cause : TickCause)
  | lifetimeExpiry (c : CtxId)
  | windowExpiry
  -- storage, memory bus, engine
  | storageFault (slot : SlotId) (offset : Fin 32) (flip : Byte) (flipPar : Bool)
  | grant
  | memoryBeatAnswer (xerr : Bool) (data : Word) (par : Lanes)
  | jobStart
  -- ends of resets, and the fall of the TICK pin
  | portResetRelease (p : PortId)
  | partResetRelease
  | tickPinFall
deriving DecidableEq, Repr

end Sys2Proof
end

