-- ==== Sys2Proof/Machine/Operands.lean ====
section
/-! DEFINITION. Operand forms: bytes, lanes and parity, lines and addresses, the form of a cycle and of a mark
address, and the shapes of bursts. Pure functions of words. -/

namespace Sys2Proof

/-- Beat `i` of a raw cycle; a beat that the pins have not shown enables no lane. -/
def RawCycle.beat (r : RawCycle) (i : Nat) : WriteBeat := (r.beats[i]?).getD ⟨0, 0, 0⟩

end Sys2Proof

namespace Sys2Proof.Machine

/-! ### Lanes and parity -/

/-- The byte in lane `n` (00_scope.md, "Data and lanes"). -/
def laneByte (w : Word) (n : Nat) : Byte := w.extractLsb' (8 * n) 8

/-- The even parity bit of a byte: with it, the number of ones is even (00_scope.md, "Data and lanes"). -/
def byteParity (b : Byte) : Bool :=
  (b.getLsbD 0 ^^ b.getLsbD 1 ^^ b.getLsbD 2 ^^ b.getLsbD 3) ^^
  (b.getLsbD 4 ^^ b.getLsbD 5 ^^ b.getLsbD 6 ^^ b.getLsbD 7)

/-- A word from its four lane bytes. -/
def ofLanes (b0 b1 b2 b3 : Byte) : Word := b3 ++ b2 ++ b1 ++ b0

/-- A word from a function of the lane number. -/
def laneWord (f : Nat → Byte) : Word := ofLanes (f 0) (f 1) (f 2) (f 3)

/-- Four lane bits from a function of the lane number. -/
def laneBits (f : Nat → Bool) : Lanes :=
  BitVec.ofBool (f 3) ++ BitVec.ofBool (f 2) ++ BitVec.ofBool (f 1) ++ BitVec.ofBool (f 0)

/-- The even parity bits of all four lanes of a beat (R146, R163). -/
def wordParity (w : Word) : Lanes := laneBits fun n => byteParity (laneByte w n)

/-- Every lane whose enable is clear carries 00h (R146, R162). -/
def maskLanes (en : Lanes) (w : Word) : Word :=
  laneWord fun n => if en.getLsbD n then laneByte w n else 0

/-- Every enabled byte of a beat agrees with its parity bit (R149, R163). -/
def beatGood (en : Lanes) (w : Word) (par : Lanes) : Bool :=
  [0, 1, 2, 3].all fun n => !en.getLsbD n || (byteParity (laneByte w n) == par.getLsbD n)

/-- The parity of a write, beat by beat and lane by lane (R149). -/
def writeGood (beats : List WriteBeat) : Bool :=
  beats.all fun b => beatGood b.en b.data b.par

/-! ### Lines and addresses -/

/-- The line of a byte address: the address divided by 32. -/
def lineOf (a : Addr) : Line := a.extractLsb' 5 23

/-- The first byte of a line: the line address times 32. -/
def lineAddr (l : Line) : Addr := l ++ (0 : BitVec 5)

/-- The byte address of beat `i` of a cycle at `a` (R145). -/
def beatAddr (a : Addr) (i : Nat) : Addr := a + BitVec.ofNat 28 (4 * i)

/-- The offset in its line of the byte in lane `n` of beat `i` (R57). -/
def byteOffset (a : Addr) (i n : Nat) : Nat := (beatAddr a i).toNat % 32 + n

/-! ### The form of a cycle -/

/-- The number of beats that MnL and XL code (12_formats_and_worked_sequences.md, 12.2). -/
def beatsOf (len : BitVec 2) : Nat := 2 ^ len.toNat

/-- The code of a number of beats on MnL and XL (12.2). -/
def lenCode (n : Nat) : BitVec 2 :=
  if n = 1 then 0 else if n = 2 then 1 else if n = 4 then 2 else 3

/-- A burst of `n` beats at `a` has a length the pins can code and is aligned to its own size (R145, R147). -/
def legalBurst (a : Addr) (n : Nat) : Bool :=
  (n == 1 || n == 2 || n == 4 || n == 8) && a.toNat % (4 * n) == 0

/-- The mark address of a code and an argument: code in bits 21:18, argument in bits 17:2 (R186). -/
def markAddr (code : Nat) (arg : Arg) : Addr :=
  BitVec.ofNat 28 (code * 2 ^ 18 + arg.toNat * 4)

/-- The mark codes of the read direction (R186). -/
def readMarkCodes : List Nat := [1, 2, 3, 4]
/-- The mark codes of the write direction (R186). -/
def writeMarkCodes : List Nat := [9, 10, 11]

/-- The mark code that an address carries, MnA[21:18] (R186). -/
def markCodeOf (a : Addr) : Nat := (a.extractLsb' 18 4).toNat
/-- The argument that a mark address carries, MnA[17:2] (R186). -/
def markArgOf (a : Addr) : Arg := a.extractLsb' 2 16

/-- A mark cycle is malformed (R147): its length is not 1, an enable is clear, a bit stands outside the code and
argument fields, or the code is none of its direction's. -/
def malformedMark (codes : List Nat) (r : RawCycle) : Bool :=
  r.len != 0 || (r.beat 0).en != 0xF || r.addr.extractLsb' 22 6 != 0 || r.addr.extractLsb' 0 2 != 0 ||
    !codes.contains (markCodeOf r.addr)

/-- A cycle is malformed when any condition of R147 holds. Kind 0 begins no cycle (R144). -/
def malformed (r : RawCycle) : Bool :=
  if r.kind = 0 then false
  else if r.kind = 7 then true
  else if r.addr.toNat % (4 * beatsOf r.len) ≠ 0 then true
  else if r.kind = 3 ∨ r.kind = 4 then r.len != 0
  else if r.kind = 5 then malformedMark readMarkCodes r
  else if r.kind = 6 then malformedMark writeMarkCodes r
  else false

/-- A read kind is answered on every beat: MEM-READ, LOCK-READ or MARK-READ (R147). -/
def readKind (k : BitVec 3) : Bool := k = 1 || k = 3 || k = 5
/-- A write kind is taken after its last data beat: MEM-WRITE, LOCK-WRITE or MARK-WRITE (R145, R147). -/
def writeKind (k : BitVec 3) : Bool := k = 2 || k = 4 || k = 6

/-! ### The argument of OPEN and of STATUS -/

/-- BOUNDED is bit 0 of an OPEN argument (R6). -/
def argBounded (a : Arg) : Bool := a.getLsbD 0
/-- ESCAPE is bit 1 of an OPEN argument (R6). -/
def argEscape (a : Arg) : Bool := a.getLsbD 1
/-- NOTICE is bits 3:2 of an OPEN argument (R6). -/
def argNotice (a : Arg) : Nat := (a.extractLsb' 2 2).toNat
/-- An OPEN argument is legal: NOTICE is not 3 and bits 15:4 are zero (R13). -/
def openArgLegal (a : Arg) : Bool := argNotice a != 3 && a.extractLsb' 4 12 == 0

/-! ### Write-mark data -/

/-- DROP's data and argument are legal: code 16 or more, bits 31:8 zero, argument zero (R20). -/
def dropLegal (arg : Arg) (data : Word) : Bool :=
  arg == 0 && data.extractLsb' 8 24 == 0 && 16 ≤ (data.extractLsb' 0 8).toNat

/-- RECADDR's data and argument are legal: data zero, or bits 4:0 and 31:28 zero; argument zero (R21). -/
def recAddrLegal (arg : Arg) (data : Word) : Bool :=
  arg == 0 && (data == 0 || (data.extractLsb' 0 5 == 0 && data.extractLsb' 28 4 == 0))

/-- The pending record address that RECADDR's data names: none for 0 (R21). -/
def recAddrValue (data : Word) : Option Addr :=
  if data = 0 then none else some (data.extractLsb' 0 28)

end Sys2Proof.Machine
end

