-- ==== Sys2Proof/WellFormed.lean ====
section
/-! DEFINITION. Which commands are well formed: the operands spell a cycle or an event of that row. -/

namespace Sys2Proof
open Machine

/-- A command spells its row of the table. A memory cycle has a legal burst and a write brings no more beats than it
has (R145, R147), a locked cycle is a single aligned beat (R145), the raw cycle of MALFORMED_CYCLE is malformed (R147),
and SETCFG_UNDEFINED_ITEM names no item from 00h to 10h (R174). Every other command is well formed by its types. -/
def Instr.wellFormed : Instr → Bool
  | .memRead _ addr ens => legalBurst addr ens.length
  | .memWrite _ addr data => legalBurst addr (beatsOf data.len) && decide (data.beats.length ≤ beatsOf data.len)
  | .lockRead _ addr _ => legalBurst addr 1
  | .lockWrite _ addr _ => legalBurst addr 1
  | .malformedCycle _ raw => malformed raw && decide (raw.beats.length ≤ beatsOf raw.len)
  | .setCfgUndefinedItem _ item _ _ => decide (0x10 < item.toNat)
  | .markOpen _ _ => true
  | .markClose _ _ => true
  | .markDrop _ _ _ _ => true
  | .markRecAddr _ _ _ _ => true
  | .markStatus _ _ => true
  | .markGetCfg _ _ => true
  | .setCfgRegion _ _ _ _ => true
  | .setCfgPairing _ _ _ => true
  | .setCfgLifetime _ _ _ _ => true
  | .setCfgSlotCaps _ _ _ => true
  | .setCfgEscalation _ _ _ => true
  | .setCfgTickSource _ _ _ => true
  | .setCfgFaultMasks _ _ _ => true
  | .portReset _ => true
  | .partReset _ => true
  | .qreqAsserted => true
  | .qreqNegated => true
  | .tick _ => true
  | .lifetimeExpiry _ => true
  | .windowExpiry => true
  | .storageFault _ _ _ _ => true
  | .grant => true
  | .memoryBeatAnswer _ _ _ => true
  | .jobStart => true
  | .portResetRelease _ => true
  | .partResetRelease => true
  | .tickPinFall => true

end Sys2Proof
end

