-- ==== Sys2Proof/Decode.lean ====
section
/-! DEFINITION. The decoder over the rows of spec/opcode_table.json that give bits (no row of this block's table gives
any, so no word spells a command), and the reading of a master port's pins: which command a cycle on them is, and the
pins of a command. -/

namespace Sys2Proof
open Machine

/-- The command that a word spells by the table's bits: none, since no row has bits. -/
def decodeTableWord (_nbits _w : Nat) : Option Instr := none

/-! ### From the pins to the command -/

/-- The read mark of a code (R186). -/
def readMarkOf (p : PortId) (code : Nat) (arg : Arg) : Option Instr :=
  if code = 1 then some (.markOpen p arg)
  else if code = 2 then some (.markClose p arg)
  else if code = 3 then some (.markStatus p arg)
  else if code = 4 then some (.markGetCfg p arg)
  else none

/-- The SETCFG row of an item (R174). -/
def setCfgOf (p : PortId) (item : Arg) (data : Word) (par : Lanes) : Instr :=
  if h : item.toNat < 8 then .setCfgRegion p ⟨item.toNat, h⟩ data par
  else if item = 0x08 then .setCfgPairing p data par
  else if item = 0x09 then .setCfgLifetime p 0 data par
  else if item = 0x0A then .setCfgLifetime p 1 data par
  else if item = 0x0B then .setCfgLifetime p 2 data par
  else if item = 0x0C then .setCfgLifetime p 3 data par
  else if item = 0x0D then .setCfgSlotCaps p data par
  else if item = 0x0E then .setCfgEscalation p data par
  else if item = 0x0F then .setCfgTickSource p data par
  else if item = 0x10 then .setCfgFaultMasks p data par
  else .setCfgUndefinedItem p item data par

/-- The write mark of a code (R186). -/
def writeMarkOf (p : PortId) (code : Nat) (arg : Arg) (data : Word) (par : Lanes) : Option Instr :=
  if code = 9 then some (.markDrop p arg data par)
  else if code = 10 then some (.markRecAddr p arg data par)
  else if code = 11 then some (setCfgOf p arg data par)
  else none

/-- The command that a cycle on a port's pins is, all its beats shown: none for kind 0, which begins no cycle; a
malformed cycle; a memory cycle of its kind; or the mark that the mark address carries (R144, R145, R147, R186). -/
def decodeCycle (p : PortId) (r : RawCycle) : Option Instr :=
  if r.kind = 0 then none
  else if malformed r then some (.malformedCycle p r)
  else if r.kind = 1 then some (.memRead p r.addr ((List.range (beatsOf r.len)).map fun i => (r.beat i).en))
  else if r.kind = 2 then some (.memWrite p r.addr ⟨r.len, r.beats⟩)
  else if r.kind = 3 then some (.lockRead p r.addr (r.beat 0).en)
  else if r.kind = 4 then some (.lockWrite p r.addr (r.beat 0))
  else if r.kind = 5 then readMarkOf p (markCodeOf r.addr) (markArgOf r.addr)
  else writeMarkOf p (markCodeOf r.addr) (markArgOf r.addr) (r.beat 0).data (r.beat 0).par

/-! ### From the command to the pins -/

/-- The pins of a read mark (R153, R186). -/
def readMarkPins (code : Nat) (arg : Arg) : RawCycle := ⟨5, markAddr code arg, 0, [⟨0xF, 0, 0⟩]⟩
/-- The pins of a write mark (R153, R186). -/
def writeMarkPins (code : Nat) (arg : Arg) (data : Word) (par : Lanes) : RawCycle :=
  ⟨6, markAddr code arg, 0, [⟨0xF, data, par⟩]⟩

/-- The port and the pins of a command that is a cycle; none for every other command. -/
def Instr.pins : Instr → Option (PortId × RawCycle)
  | .markOpen p arg => some (p, readMarkPins 1 arg)
  | .markClose p arg => some (p, readMarkPins 2 arg)
  | .markStatus p arg => some (p, readMarkPins 3 arg)
  | .markGetCfg p arg => some (p, readMarkPins 4 arg)
  | .markDrop p arg data par => some (p, writeMarkPins 9 arg data par)
  | .markRecAddr p arg data par => some (p, writeMarkPins 10 arg data par)
  | .setCfgRegion p k data par => some (p, writeMarkPins 11 (BitVec.ofNat 16 k.val) data par)
  | .setCfgPairing p data par => some (p, writeMarkPins 11 0x08 data par)
  | .setCfgLifetime p c data par => some (p, writeMarkPins 11 (BitVec.ofNat 16 (0x09 + c.val)) data par)
  | .setCfgSlotCaps p data par => some (p, writeMarkPins 11 0x0D data par)
  | .setCfgEscalation p data par => some (p, writeMarkPins 11 0x0E data par)
  | .setCfgTickSource p data par => some (p, writeMarkPins 11 0x0F data par)
  | .setCfgFaultMasks p data par => some (p, writeMarkPins 11 0x10 data par)
  | .setCfgUndefinedItem p item data par => some (p, writeMarkPins 11 item data par)
  | .memRead p addr ens => some (p, ⟨1, addr, lenCode ens.length, ens.map fun e => ⟨e, 0, 0⟩⟩)
  | .memWrite p addr data => some (p, ⟨2, addr, data.len, data.beats⟩)
  | .lockRead p addr en => some (p, ⟨3, addr, 0, [⟨en, 0, 0⟩]⟩)
  | .lockWrite p addr beat => some (p, ⟨4, addr, 0, [beat]⟩)
  | .malformedCycle p raw => some (p, raw)
  | .portReset _ | .partReset _ | .qreqAsserted | .qreqNegated | .tick _ | .lifetimeExpiry _ | .windowExpiry
  | .storageFault _ _ _ _ | .grant | .memoryBeatAnswer _ _ _ | .jobStart | .portResetRelease _ | .partResetRelease
  | .tickPinFall => none

end Sys2Proof
end

