-- ==== Sys2Proof/Machine/State.lean ====
section
/-! DEFINITION. The state of the bridge as plain data, the reasons a command may stop, and the state after reset. -/

namespace Sys2Proof.Machine

/-! ### Names -/

/-- The states of a context (R3, section 1.2). -/
inductive CtxState where
  | idle
  | opened
  | committing
  | aborting
  | doomed
deriving DecidableEq, Repr

/-- The abort codes (R89, R90). `user b` is a code raised by DROP. -/
inductive AbortCode where
  | conflict
  | invaded
  | timeout
  | capacity
  | bounds
  | depth
  | untracked
  | locked
  | parity
  | memerr
  | quiesce
  | portReset
  | blocked
  | user (code : Byte)
deriving DecidableEq, Repr

/-- The party of an abort: a context or a port (R88). -/
inductive Party where
  | ctx (c : CtxId)
  | port (p : PortId)
deriving DecidableEq, Repr

/-- The kinds of region (R107). -/
inductive Kind where
  | tracked
  | pass
  | blocked
deriving DecidableEq, Repr

/-- The modes of a lifetime setting (R122). -/
inductive LifeMode where
  | time
  | cycles
deriving DecidableEq, Repr

/-- The states of the bridge (R173). -/
inductive Bridge where
  | running
  | draining
  | quiesced
deriving DecidableEq, Repr

/-- The priority token (R130). -/
inductive Token where
  | free
  | reserved (c : CtxId)
  | held (c : CtxId)
deriving DecidableEq, Repr

/-- How a context stands to the token and the queue (R130). -/
inductive Relation where
  | none
  | queued
  | reserved
  | held
deriving DecidableEq, Repr

/-- The eight port fault flags (R144). -/
inductive Flag where
  | notice
  | parity
  | refused
  | collision
  | memerr
  | torn
  | cfgrej
  | recskip
deriving DecidableEq, Repr

/-- The response codes on MnR (R146). -/
inductive Resp where
  | done
  | retry
  | error
deriving DecidableEq, Repr

/-- The requesters of the memory bus: a port, or the Commit Engine E (R164). -/
inductive Requester where
  | port (p : PortId)
  | engine
deriving DecidableEq, Repr

/-- The outcomes of OPEN and CLOSE (section 1.5, 12.5). -/
inductive MarkOutcome where
  | started
  | entered
  | left
  | committed
  | torn
  | aborted
  | doomed
  | notOpen
  | spec
  | quiesced
  | collided
deriving DecidableEq, Repr

/-! ### Group Context Unit -/

/-- One entry of a level stack (R6). -/
structure Level where
  bounded : Bool
  escape : Bool
  notice : Nat
deriving DecidableEq, Repr

/-- The fields of a context that the Group Context Unit owns (R3). `levels` has the outermost entry last. `number` is
the model's own: how many groups the context has started, which tells one group of a context from the next (log entry
10). -/
structure Context where
  state : CtxState
  depth : Nat
  levels : List Level
  escape : Bool
  notice : Nat
  bounded : Bool
  outerArg : Arg
  recAddr : Option Addr
  lifetime : Nat
  cycles : Nat
  lastCode : Option AbortCode
  release : Bool
  held : Option PortId
  number : Nat
deriving DecidableEq, Repr

/-- A context after part reset (R3). -/
def Context.reset : Context where
  state := .idle
  depth := 0
  levels := []
  escape := false
  notice := 0
  bounded := false
  outerArg := 0
  recAddr := none
  lifetime := 0
  cycles := 0
  lastCode := none
  release := false
  held := none
  number := 0

/-! ### Staging Store -/

/-- A written byte of a slot with its stored parity bit (R54). -/
structure StoredByte where
  val : Byte
  par : Bool
deriving DecidableEq, Repr

/-- What a slot that is not FREE holds: LOCKED or STAGED, owner, line, and for each of the 32 bytes of the line
either nothing (mask bit clear) or the written byte (R53, R54; log entry 19). -/
structure SlotBody where
  locked : Bool
  owner : CtxId
  line : Line
  bytes : Vector (Option StoredByte) 32
deriving DecidableEq, Repr

/-! ### Bursts and requests -/

/-- One beat of a burst on the memory bus: enables, and for a write its data (R162). -/
structure BurstBeat where
  en : Lanes
  data : Word
deriving DecidableEq, Repr

/-- A burst: direction, byte address and beats (R162). -/
structure Burst where
  write : Bool
  addr : Addr
  beats : List BurstBeat
deriving DecidableEq, Repr

/-- A port's request at the Memory Port; `closing` when it carries an ending LOCK-WRITE (R164, R167). -/
structure Request where
  burst : Burst
  closing : Bool
deriving DecidableEq, Repr

/-- The granted burst on a BUSY bus: its requester, the beats answered so far, whether a beat had a memory error,
and whether a port reset has left its answers without a master (R162, R164, R157). -/
structure BusBurst where
  owner : Requester
  burst : Burst
  closing : Bool
  answered : Nat
  bad : Bool
  orphan : Bool
deriving DecidableEq, Repr

/-! ### Commit Engine -/

/-- The record image (R92). -/
structure Image where
  code : AbortCode
  depth : Nat
  ctx : CtxId
  bounded : Bool
  notice : Nat
  cause : Option Addr
  party : Option Party
  lifetime : Nat
  slots : Nat
  reads : Nat
  cycles : Nat
  counter : Nat
  relation : Relation
  outerArg : Arg
deriving DecidableEq, Repr

/-- What a job does: a commit with its lines still to write, failed-line count and position (R69, R74), or a record
with its address and image (R99). -/
inductive JobWork where
  | commit (remaining failed pos : Nat)
  | record (addr : Addr) (image : Image)
deriving DecidableEq, Repr

/-- Where a job stands: waiting for its start or for its next line's turn, its request standing, or its burst out
(R73, R74, R100). -/
inductive JobPhase where
  | waiting
  | requesting (burst : Burst)
  | writing
deriving DecidableEq, Repr

/-- A job of the Commit Engine (R72). -/
structure Job where
  ctx : CtxId
  work : JobWork
  phase : JobPhase
deriving DecidableEq, Repr

/-! ### Master Port Units -/

/-- One response on MnR, with the lanes and parity the port drives when it drives data (R146). -/
structure Answer where
  resp : Resp
  data : Option (Word × Lanes)
deriving DecidableEq, Repr

/-- What one beat of a read in progress carries: its enables, the staged bytes copied for it (`staged` says which
lanes), and whether a copied byte failed its check (R61, R65). -/
structure ReadBeat where
  en : Lanes
  staged : Lanes
  data : Word
  failed : Bool
deriving DecidableEq, Repr

/-- One group of a context: the context, and the group's number in it (R169; log entry 10). -/
structure GroupRef where
  ctx : CtxId
  number : Nat
deriving DecidableEq, Repr

/-- The phase of a cycle in progress (R144, R155, R157): a write of which some beats have arrived; a read whose
responses are known and of which these are still to be given; a read that memory is to answer, with the group whose
read it is (R169); a taken write that waits for its burst to complete; a held CLOSE. -/
inductive Phase where
  | arriving (got : List WriteBeat)
  | answering (left : List Answer)
  | reading (beats : List ReadBeat) (group : Option GroupRef)
  | writing (beats : List WriteBeat)
  | held
deriving DecidableEq, Repr

/-- The cycle in progress of a port (R144): kind, address and burst length as they were sampled when it began, and its
phase with the beats received. The beats answered so far are the port's `answers`. -/
structure Cycle where
  kind : BitVec 3
  addr : Addr
  len : BitVec 2
  phase : Phase
deriving DecidableEq, Repr

/-- The state of a Master Port Unit (R144), the level of MnRST#, and the responses given to the latest cycle. -/
structure PortState where
  cycle : Option Cycle
  pair : Option Line
  pendRec : Option Addr
  flags : BitVec 8
  resetPin : Bool
  answers : List Answer
deriving DecidableEq, Repr

/-- A port after part reset, its MnRST# pin at the given level (R144). -/
def PortState.reset (pin : Bool) : PortState where
  cycle := none
  pair := none
  pendRec := none
  flags := 0
  resetPin := pin
  answers := []

/-! ### Regions and lifetimes -/

/-- A present entry of the Region Table (R107). -/
structure Region where
  base : Line
  exp : BitVec 5
  kind : Kind
deriving DecidableEq, Repr

/-- A lifetime setting (R122). -/
structure Lifetime where
  limit : BitVec 16
  mode : LifeMode
deriving DecidableEq, Repr

/-! ### The reasons to stop -/

/-- The faults that stop the machine: there is none. What goes wrong in the bridge is an answer, a flag or an abort
(INVENTORY.md, "Faults"), and the spec names no event that stops the part. -/
inductive Fault where
deriving DecidableEq, Repr

/-- Why a command has no meaning. -/
inductive Refusal where
  /-- The command's row has no meaning yet; only exec's own arms raise it. Safe. -/
  | notModelled (mnemonic : String)
deriving DecidableEq, Repr

/-! ### The state -/

/-- The state of the whole part, block by block, with the queue of commands that wait. -/
structure State where
  -- Group Context Unit
  ctxs : Four Context
  ages : List CtxId
  -- Line Directory
  readSets : Four (List Line)
  inFlight : List (PortId × Line)
  -- Staging Store
  slots : Vector (Option SlotBody) 48
  orders : Four (List SlotId)
  caps : Four Nat
  -- Commit Engine
  jobs : List Job
  -- Contention Unit
  counters : Four Nat
  prioQueue : List CtxId
  token : Token
  window : Option Nat
  threshold : BitVec 4
  windowLen : BitVec 8
  -- Master Port Units
  ports : Four PortState
  -- Tick Generator and lifetime settings
  tickSource : BitVec 3
  divisor : Nat
  tickLevel : Bool
  lifetimes : Four Lifetime
  -- Region Table
  regions : Vector (Option Region) 8
  -- Memory Port Unit
  bus : Option BusBurst
  reqs : Four (Option Request)
  pointer : Requester
  -- Configuration and Fault Unit
  cfgPort : PortId
  joinA : Bool
  joinB : Bool
  masks : BitVec 8
  bridge : Bridge
  -- pins that hold a level
  qreq : Bool
  rst : Bool
  -- the model's own
  freeCount : Nat
  pending : List Instr
deriving DecidableEq, Repr

/-- The Region Table after part reset: E0 covers all memory as TRACKED when TRKALL is high, every entry is absent
when it is low (R107). -/
def regionsAtReset (trkall : Bool) : Vector (Option Region) 8 :=
  if trkall then (Vector.replicate 8 none).set 0 (some ⟨0, 28, .tracked⟩) else Vector.replicate 8 none

/-- Every block at its part-reset value with the given straps sampled (R3, R27, R29, R34, R53, R56, R72, R107, R118,
R122, R130, R144, R164, R173, R176, R184), every pin negated and nothing waiting. -/
def State.afterPartReset (st : Straps) : State where
  ctxs := .same .reset
  ages := []
  readSets := .same []
  inFlight := []
  slots := Vector.replicate 48 none
  orders := .same []
  caps := .same 24
  jobs := []
  counters := .same 0
  prioQueue := []
  token := .free
  window := none
  threshold := 4
  windowLen := 64
  ports := .same (.reset false)
  tickSource := 3
  divisor := 0
  tickLevel := true
  lifetimes := .same ⟨0, .time⟩
  regions := regionsAtReset st.trkall
  bus := none
  reqs := .same none
  pointer := .engine
  cfgPort := st.cfgp
  joinA := st.jna
  joinB := st.jnb
  masks := 0x08
  bridge := .running
  qreq := false
  rst := false
  freeCount := 0
  pending := []

/-- The part right after reset, RST# negated again (R27), with every strap low (DESIGN CHOICE, log entry 2) and
every other pin negated (DESIGN CHOICE, log entry 3). -/
def State.reset : State := .afterPartReset .low

end Sys2Proof.Machine
end

