-- ==== Sys2Proof/Machine/Flags.lean ====
section
/-! DEFINITION. The port fault flags, their order, and the lines that follow from the state: FLT#, ABT#, QACK#. -/

namespace Sys2Proof.Machine

/-- The bit of a flag in the flag order (section 12.4). -/
def Flag.bit : Flag → Nat
  | .notice => 0
  | .parity => 1
  | .refused => 2
  | .collision => 3
  | .memerr => 4
  | .torn => 5
  | .cfgrej => 6
  | .recskip => 7

/-- A flag word with that one flag set. -/
def Flag.word (f : Flag) : BitVec 8 := BitVec.ofNat 8 (2 ^ f.bit)

/-- The class of an abort code: 1 fault, 2 resource, 3 contention (R89, R90). -/
def AbortCode.cls : AbortCode → Nat
  | .parity | .memerr | .portReset => 1
  | .capacity | .bounds | .depth | .untracked | .locked | .blocked => 2
  | .conflict | .invaded | .timeout | .quiesce | .user _ => 3

/-- The transient bit of an abort code (R89); a user code is transient when it is even (R90). -/
def AbortCode.transient : AbortCode → Bool
  | .conflict | .invaded | .timeout | .quiesce | .portReset => true
  | .user b => !b.getLsbD 0
  | .capacity | .bounds | .depth | .untracked | .locked | .parity | .memerr | .blocked => false

/-- The number of an abort code (R89, R90). -/
def AbortCode.num : AbortCode → Byte
  | .conflict => 1
  | .invaded => 2
  | .timeout => 3
  | .capacity => 4
  | .bounds => 5
  | .depth => 6
  | .untracked => 7
  | .locked => 8
  | .parity => 9
  | .memerr => 10
  | .quiesce => 11
  | .portReset => 12
  | .blocked => 13
  | .user b => b

/-- The abort counts for escalation when its group was bounded (R133). -/
def AbortCode.counts : AbortCode → Bool
  | .conflict | .invaded | .timeout => true
  | .capacity | .bounds | .depth | .untracked | .locked | .parity | .memerr | .quiesce | .portReset
  | .blocked | .user _ => false

/-- The classes that set NOTICE at an effective notice value (R95). -/
def noticeAllows (notice cls : Nat) : Bool :=
  if notice = 0 then true else if notice = 1 then cls == 1 || cls == 2 else cls == 1

/-! ### Which context serves a port -/

/-- The pair of a port is JOINED (R2). -/
def State.joined (s : State) (p : PortId) : Bool := if p.val < 2 then s.joinA else s.joinB

/-- The context that serves a port, from the pairing in force (R2). -/
def State.serving (s : State) (p : PortId) : CtxId :=
  match p with
  | 0 => 0
  | 1 => if s.joinA then 0 else 1
  | 2 => 2
  | 3 => if s.joinB then 2 else 3

/-- The ports that a context serves (R2). -/
def State.served (s : State) (c : CtxId) : List PortId := four.filter fun p => s.serving p = c

/-! ### Setting and clearing flags -/

/-- The state with one port changed. -/
def State.setPort (s : State) (p : PortId) (q : PortState) : State := { s with ports := s.ports.set p q }

/-- A flag is set on one port; a flag already set stays set (R178). -/
def State.setFlag (s : State) (p : PortId) (f : Flag) : State :=
  s.setPort p { s.ports.get p with flags := (s.ports.get p).flags ||| f.word }

/-- A flag is set on every port of a list. -/
def State.setFlags (s : State) (ps : List PortId) (f : Flag) : State :=
  ps.foldl (fun t p => t.setFlag p f) s

/-- The flags a mask selects are cleared on one port (R180). -/
def State.clearFlags (s : State) (p : PortId) (mask : BitVec 8) : State :=
  s.setPort p { s.ports.get p with flags := (s.ports.get p).flags &&& ~~~mask }

/-! ### Output lines -/

/-- FLT# is asserted while some port has a set flag whose mask bit is 0 (R179). -/
def State.flt (s : State) : Bool := four.any fun p => (s.ports.get p).flags &&& ~~~s.masks != 0

/-- A port's ABT# is asserted exactly when its serving context is ABORTING or DOOMED (R96). -/
def State.abt (s : State) (p : PortId) : Bool :=
  let st := (s.ctxs.get (s.serving p)).state
  st = .aborting || st = .doomed

/-- QACK# is asserted in QUIESCED and negated in RUNNING and DRAINING (R183). -/
def State.qack (s : State) : Bool := s.bridge = .quiesced

end Sys2Proof.Machine
end

