-- ==== Sys2Proof/Machine/Ops.lean ====
section
/-! DEFINITION. The named operations over the state: updates of one context, one port, one set; the answers of a
port; regions; the Directory's and the Store's views of lines; and the free orders. -/

namespace Sys2Proof.Machine

/-! ### Updates of one part of the state -/

/-- The context `c`. -/
def State.ctx (s : State) (c : CtxId) : Context := s.ctxs.get c

/-- The state with one context changed. -/
def State.setCtx (s : State) (c : CtxId) (x : Context) : State := { s with ctxs := s.ctxs.set c x }

/-- The port `p`. -/
def State.port (s : State) (p : PortId) : PortState := s.ports.get p

/-- The state with the read set of one context changed (R29). -/
def State.setReads (s : State) (c : CtxId) (l : List Line) : State :=
  { s with readSets := s.readSets.set c l }

/-- The state with the write-order list of one context changed (R55). -/
def State.setOrder (s : State) (c : CtxId) (l : List SlotId) : State :=
  { s with orders := s.orders.set c l }

/-- The state with other slots (R53). -/
def State.setSlots (s : State) (v : Vector (Option SlotBody) 48) : State := { s with slots := v }

/-- The state with one slot changed (R53). -/
def State.setSlot (s : State) (i : SlotId) (b : Option SlotBody) : State :=
  { s with slots := s.slots.set i b }

/-- The state with the consecutive-abort counter of one context changed (R130). -/
def State.setCounter (s : State) (c : CtxId) (n : Nat) : State :=
  { s with counters := s.counters.set c n }

/-- The state with another age list (R9). -/
def State.setAges (s : State) (l : List CtxId) : State := { s with ages := l }

/-- The state with another job queue (R72). -/
def State.setJobs (s : State) (l : List Job) : State := { s with jobs := l }

/-- The state with another token and window timer (R130). -/
def State.setToken (s : State) (t : Token) (w : Option Nat) : State := { s with token := t, window := w }

/-- The state with another priority queue (R130). -/
def State.setQueue (s : State) (l : List CtxId) : State := { s with prioQueue := l }

/-- The state with another burst on the bus, or none (R162). -/
def State.setBus (s : State) (b : Option BusBurst) : State := { s with bus := b }

/-- The state with another last winner (R164). -/
def State.setPointer (s : State) (r : Requester) : State := { s with pointer := r }

/-- The state with other writes in flight (R34). -/
def State.setInFlight (s : State) (l : List (PortId × Line)) : State := { s with inFlight := l }

/-- The state with another bridge state (R173). -/
def State.setBridge (s : State) (b : Bridge) : State := { s with bridge := b }

/-- The state with another argument of the free value (log entry 8). -/
def State.setFreeCount (s : State) (n : Nat) : State := { s with freeCount := n }

/-! ### Answers of a port -/

/-- DONE with no data: the answer to a write or a write mark (R146). -/
def Answer.done : Answer := ⟨.done, none⟩
/-- RETRY, which carries no data (R36). -/
def Answer.retry : Answer := ⟨.retry, none⟩
/-- ERROR to a write or a write mark (R146). -/
def Answer.error : Answer := ⟨.error, none⟩
/-- DONE with a word on all four lanes, and the even parity the port generates (R146). -/
def Answer.word (w : Word) : Answer := ⟨.done, some (w, wordParity w)⟩
/-- ERROR on a read: every lane carries 00h (R146). -/
def Answer.readError : Answer := ⟨.error, some (0, wordParity 0)⟩

/-- The port gives answers to its cycle (R146). -/
def State.respond (s : State) (p : PortId) (as : List Answer) : State :=
  s.setPort p { s.port p with answers := (s.port p).answers ++ as }

/-- The port's cycle in progress is set (R144). -/
def State.setCycle (s : State) (p : PortId) (c : Option Cycle) : State :=
  s.setPort p { s.port p with cycle := c }

/-- A read is answered beat by beat from responses that are known: the first is given now and the others remain the
port's cycle in progress, one to a part clock (R146, R62; log entry 5). -/
def State.giveBeats (s : State) (p : PortId) (kind : BitVec 3) (addr : Addr) (len : BitVec 2) :
    List Answer → State
  | [] => s.setCycle p none
  | a :: rest =>
    (s.respond p [a]).setCycle p (if rest.isEmpty then none else some ⟨kind, addr, len, .answering rest⟩)

/-- A read just taken is answered with these responses, one for each of its beats (R146). -/
def State.answerBeats (s : State) (p : PortId) (kind : BitVec 3) (addr : Addr) (as : List Answer) : State :=
  s.giveBeats p kind addr (lenCode as.length) as

/-- The port's pair state is set, and with it its pair lock and lock reservation (R144, R33, R166). -/
def State.setPair (s : State) (p : PortId) (l : Option Line) : State :=
  s.setPort p { s.port p with pair := l }

/-- The port's request at the Memory Port is set (R164). -/
def State.setReq (s : State) (p : PortId) (r : Option Request) : State :=
  { s with reqs := s.reqs.set p r }

/-! ### Regions -/

/-- The size of a region in lines: 2 to the power (exponent - 5) (R107). -/
def Region.lines (r : Region) : Nat := 2 ^ (r.exp.toNat - 5)

/-- The region holds the line (R107). -/
def Region.holds (r : Region) (l : Line) : Bool :=
  decide (r.base.toNat ≤ l.toNat ∧ l.toNat < r.base.toNat + r.lines)

/-- The kind of a line: that of the present entry whose region holds it, and PASS when none does (R108). -/
def State.kindOf (s : State) (l : Line) : Kind :=
  match s.regions.toList.find? fun e => e.any fun r => r.holds l with
  | some (some r) => r.kind
  | _ => .pass

/-! ### Read sets, write sets, footprints -/

/-- The lines a context's group has read (R29). -/
def State.reads (s : State) (c : CtxId) : List Line := s.readSets.get c

/-- The slots a context owns, in order of allocation (R55). -/
def State.order (s : State) (c : CtxId) : List SlotId := s.orders.get c

/-- The line a slot holds (R53). -/
def State.slotLine (s : State) (i : SlotId) : Option Line := (s.slots[i]).map SlotBody.line

/-- The write set of a context: the lines of the slots on its list (R55). -/
def State.writes (s : State) (c : CtxId) : List Line := (s.order c).filterMap s.slotLine

/-- The slot in which a context has staged a line (R57). -/
def State.slotOf (s : State) (c : CtxId) (l : Line) : Option SlotId :=
  (s.order c).find? fun i => s.slotLine i = some l

/-- The context that the write-set map gives for a line (R30). -/
def State.writeOwner (s : State) (l : Line) : Option CtxId := four.find? fun c => (s.writes c).contains l

/-- A line is in the footprint of a context: in its read set or its write set (R31). -/
def State.inFootprint (s : State) (c : CtxId) (l : Line) : Bool :=
  (s.reads c).contains l || (s.writes c).contains l

/-- The number of lines in a footprint, a line in both sets counting once (R31). -/
def State.footprintSize (s : State) (c : CtxId) : Nat :=
  (s.reads c).length + ((s.writes c).filter fun l => !(s.reads c).contains l).length

/-- The OPEN contexts whose footprint holds a line. -/
def State.holders (s : State) (l : Line) : List CtxId :=
  four.filter fun c => (s.ctx c).state = .opened && s.inFootprint c l

/-! ### Locks -/

/-- A line is commit-locked: it is in the write set of a COMMITTING context (R32). -/
def State.commitLocked (s : State) (l : Line) : Bool :=
  four.any fun c => (s.ctx c).state = .committing && (s.writes c).contains l

/-- A line is pair-locked by a port other than `p` (R33). -/
def State.pairLocked (s : State) (p : PortId) (l : Line) : Bool :=
  four.any fun q => q ≠ p && (s.port q).pair = some l

/-- A write of a port other than `p` is in flight on a line (R34). -/
def State.writeInFlight (s : State) (p : PortId) (l : Line) : Bool :=
  s.inFlight.any fun w => w.1 ≠ p && w.2 = l

/-- The locks that answer a cycle of port `p` to a line RETRY (R36). -/
def State.lockedFor (s : State) (p : PortId) (l : Line) : Bool :=
  s.commitLocked l || s.pairLocked p l || s.writeInFlight p l

/-! ### Free orders -/

/-- A free order of a list: while two or more remain, the free value picks which comes next (R98; log entry 8). The
first argument bounds the recursion, the second is the argument of the free value. -/
def freeOrder {α : Type} : Nat → Nat → List α → List α
  | _, _, [] => []
  | _, _, [a] => [a]
  | 0, _, l => l
  | n + 1, k, a :: b :: l =>
    let all := a :: b :: l
    let i := Config.choice k % all.length
    (all[i]?).toList ++ freeOrder n (k + 1) (all.eraseIdx i)

/-- A list in a free order, and the state with the free value's argument advanced past its uses. -/
def State.inFreeOrder {α : Type} (s : State) (l : List α) : List α × State :=
  (freeOrder l.length s.freeCount l, s.setFreeCount (s.freeCount + (l.length - 1)))

end Sys2Proof.Machine
end

