-- ==== Sys2Proof/Machine/Formats.lean ====
section
/-! DEFINITION. The words the bridge drives: result words, the STATUS word, configuration values and the abort
record (12_formats_and_worked_sequences.md). Every bit outside the fields is 0 (R185). -/

namespace Sys2Proof.Machine

/-- A field of a word: a value placed with its low bit at `at_`. -/
def field (v at_ : Nat) : Word := BitVec.ofNat 32 (v * 2 ^ at_)

/-- One bit of a word. -/
def bitField (b : Bool) (at_ : Nat) : Word := if b then field 1 at_ else 0

/-! ### Result words of OPEN and CLOSE (12.5) -/

/-- The codes of the outcomes (12.5). -/
def MarkOutcome.num : MarkOutcome → Nat
  | .started => 1
  | .entered => 2
  | .left => 3
  | .committed => 4
  | .torn => 5
  | .aborted => 6
  | .doomed => 7
  | .notOpen => 8
  | .spec => 9
  | .quiesced => 10
  | .collided => 11

/-- An outcome with no field. -/
def plainResult (o : MarkOutcome) : Word := field o.num 0

/-- STARTED, ENTERED or LEFT with the new depth. -/
def depthResult (o : MarkOutcome) (depth : Nat) : Word := field o.num 0 ||| field depth 4

/-- ABORTED or DOOMED with abort code, transient bit and depth at abort. -/
def abortResult (o : MarkOutcome) (code : Option AbortCode) (depth : Nat) : Word :=
  field o.num 0 ||| field depth 4 ||| bitField (code.any AbortCode.transient) 7 |||
    field (code.elim 0 fun a => a.num.toNat) 8

/-- TORN with the failed-line count. -/
def tornResult (failed : Nat) : Word := field MarkOutcome.torn.num 0 ||| field failed 16

/-! ### The STATUS word (12.5, R180) -/

/-- The codes of the context states (12.5). -/
def CtxState.num : CtxState → Nat
  | .idle => 0
  | .opened => 1
  | .committing => 2
  | .aborting => 3
  | .doomed => 4

/-- The codes of the token relations (12.5). -/
def Relation.num : Relation → Nat
  | .none => 0
  | .queued => 1
  | .reserved => 2
  | .held => 3

/-- How a context stands to the token and the queue (R130). -/
def State.relation (s : State) (c : CtxId) : Relation :=
  if s.token = .held c then .held
  else if s.token = .reserved c then .reserved
  else if s.prioQueue.contains c then .queued
  else .none

/-- The status word of a port, from the state as it stands (R180). -/
def State.statusWord (s : State) (p : PortId) : Word :=
  let c := s.serving p
  let x := s.ctx c
  field x.state.num 0 ||| field x.depth 4 ||| field (s.relation c).num 8 ||| field (s.counters.get c) 12 |||
    field (s.port p).flags.toNat 16 ||| field (x.lastCode.elim 0 fun a => a.num.toNat) 24

/-! ### Configuration values (12.6) -/

/-- The code of a region kind (12.6). -/
def Kind.num : Kind → Nat
  | .tracked => 1
  | .pass => 2
  | .blocked => 3

/-- The value of a Region Table entry: all fields zero when it is absent (R109, 12.6). -/
def regionValue : Option Region → Word
  | none => 0
  | some r => field r.base.toNat 0 ||| field r.exp.toNat 23 ||| field r.kind.num 28

/-- The value of a lifetime setting (12.6). -/
def lifetimeValue (l : Lifetime) : Word :=
  field l.limit.toNat 0 ||| bitField (l.mode = .cycles) 16

/-- The value of item 0Dh: the four caps, C0 lowest (12.6). -/
def capsValue (c : Four Nat) : Word :=
  field (c.get 0) 0 ||| field (c.get 1) 8 ||| field (c.get 2) 16 ||| field (c.get 3) 24

/-- The value of a configuration item as it stands; none when the item is undefined (R173, R177). -/
def State.cfgValue (s : State) (item : Nat) : Option Word :=
  if h : item < 8 then some (regionValue s.regions[item])
  else if item = 0x08 then some (bitField s.joinA 0 ||| bitField s.joinB 1)
  else if item = 0x09 then some (lifetimeValue (s.lifetimes.get 0))
  else if item = 0x0A then some (lifetimeValue (s.lifetimes.get 1))
  else if item = 0x0B then some (lifetimeValue (s.lifetimes.get 2))
  else if item = 0x0C then some (lifetimeValue (s.lifetimes.get 3))
  else if item = 0x0D then some (capsValue s.caps)
  else if item = 0x0E then some (field s.threshold.toNat 0 ||| field s.windowLen.toNat 8)
  else if item = 0x0F then some (field s.tickSource.toNat 0)
  else if item = 0x10 then some (field s.masks.toNat 0)
  else none

/-! ### The abort record (12.7, R93) -/

/-- Word 2 of a record: party number, kind bit and valid bit (12.7). -/
def partyWord : Option Party → Word
  | none => 0
  | some (.ctx c) => field c.val 0 ||| bitField true 31
  | some (.port p) => field p.val 0 ||| bitField true 30 ||| bitField true 31

/-- The eight words of an abort record, word 0 first (R93, 12.7). -/
def recordWords (i : Image) : List Word :=
  [ field 1 0 ||| field i.code.num.toNat 4 ||| field i.code.cls 12 ||| bitField i.code.transient 14 |||
      field i.depth 15 ||| field i.ctx.val 18 ||| bitField i.bounded 20 ||| field i.notice 21,
    (i.cause.elim 0 fun a => field a.toNat 0 ||| bitField true 31),
    partyWord i.party,
    field i.lifetime 0,
    field i.slots 0 ||| field i.reads 8,
    field i.cycles 0,
    field i.counter 0 ||| field i.relation.num 8,
    field i.outerArg.toNat 0 ]

/-- The record burst: eight beats at the record address, every lane enabled, beat `i` carrying word `i` (R101). -/
def recordBurst (a : Addr) (i : Image) : Burst := ⟨true, a, (recordWords i).map fun w => ⟨0xF, w⟩⟩

end Sys2Proof.Machine
end

