-- ==== Sys2Proof/Machine/Contention.lean ====
section
/-! DEFINITION. The Contention Unit's claims: grant, abort notice, commit notice, open notice, window, port reset
and the two configuration changes (08_contention_escalation.md). -/

namespace Sys2Proof.Machine

/-- Escalation is on when T and W are both at least 1 (R130). -/
def State.escalationOn (s : State) : Bool := s.threshold != 0 && s.windowLen != 0

/-- The window timer as a grant or a restart sets it from W: unlimited for 255 (R135). -/
def State.windowFromW (s : State) : Option Nat :=
  if s.windowLen = 255 then none else some s.windowLen.toNat

/-- A FREE token is granted as RESERVED to the head of a non-empty queue (R135). -/
def State.grantToken (s : State) : State :=
  match s.token, s.prioQueue with
  | .free, c :: rest =>
    if s.escalationOn then (s.setQueue rest).setToken (.reserved c) s.windowFromW else s
  | _, _ => s

/-- The token becomes FREE and the window timer unlimited (R139). -/
def State.freeToken (s : State) : State := s.setToken .free none

/-- The context owns the token, RESERVED or HELD (R130). -/
def State.ownsToken (s : State) (c : CtxId) : Bool := s.token = .held c || s.token = .reserved c

/-- Step 2 of an abort notice: a counting abort of a bounded group raises the counter, up to 15 (R133). -/
def State.countAbort (s : State) (c : CtxId) (counting : Bool) : State :=
  if counting then s.setCounter c (min Config.counterLimit (s.counters.get c + 1)) else s

/-- An abort notice: counting, the end of HELD, queueing and the grant (R133). -/
def State.abortNotice (s : State) (c : CtxId) (code : AbortCode) (bounded : Bool) : State :=
  let counting := bounded && code.counts
  let s1 := s.countAbort c counting
  let s2 := if s1.token = .held c then s1.freeToken else s1
  let queues := counting && s2.escalationOn && decide (s2.threshold.toNat ≤ s2.counters.get c) &&
    !s2.ownsToken c && !s2.prioQueue.contains c
  let s3 := if queues then s2.setQueue (s2.prioQueue ++ [c]) else s2
  s3.grantToken

/-- A commit notice: the counter becomes 0 and a HELD token of the context is freed and granted (R134, R139). -/
def State.commitNotice (s : State) (c : CtxId) : State :=
  let s1 := s.setCounter c 0
  if s1.token = .held c then s1.freeToken.grantToken else s1

/-- The notice of an outermost OPEN: a RESERVED token of a bounded group's context becomes HELD (R136). -/
def State.openNotice (s : State) (c : CtxId) (bounded : Bool) : State :=
  if s.token = .reserved c && bounded then s.setToken (.held c) s.windowFromW else s

/-- A window expiry: the token becomes FREE and is granted to the head of the queue (R137). -/
def State.windowExpires (s : State) : State := s.freeToken.grantToken

/-- One tick at the window timer (R137). -/
def State.windowTick (s : State) : State :=
  if s.token = .free then s
  else match s.window with
    | none => s
    | some n => if n ≤ 1 then s.windowExpires else s.setToken s.token (some (n - 1))

/-- The context leaves escalation: counter 0, out of the queue, its token freed and granted (R140, R132). -/
def State.leaveEscalation (s : State) (c : CtxId) : State :=
  let s1 := s.setCounter c 0
  let s2 := s1.setQueue (s1.prioQueue.filter fun d => d ≠ c)
  if s2.ownsToken c then s2.freeToken.grantToken else s2

/-- Threshold and window are set; with escalation off after the change the queue is emptied and a RESERVED token
freed (R131). -/
def State.setEscalation (s : State) (t : BitVec 4) (w : BitVec 8) : State :=
  let s1 := { s with threshold := t, windowLen := w }
  if s1.escalationOn then s1
  else
    let s2 := s1.setQueue []
    match s2.token with
    | .reserved _ => s2.freeToken
    | _ => s2

end Sys2Proof.Machine
end

