-- ==== Sys2Proof/Machine/Abort.lean ====
section
/-! DEFINITION. The end of a group: a context becoming IDLE, the freeing of its slots, and an abort taken as one
shared operation (05_aborts_and_abort_records.md). -/

namespace Sys2Proof.Machine

/-! ### The effective controls -/

/-- The effective escape: 1 when every entry on the stack has escape 1 (R7); 0 for an empty stack. -/
def escapeOf (ls : List Level) : Bool := !ls.isEmpty && ls.all Level.escape

/-- The effective notice: the largest notice value on the stack (R7). -/
def noticeOf (ls : List Level) : Nat := ls.foldr (fun l n => max l.notice n) 0

/-- The bounded flag: the bounded bit of the outermost entry (R7). -/
def boundedOf (ls : List Level) : Bool := ls.getLast?.any Level.bounded

/-- A level stack put in place, with its height as the depth and the effective controls formed anew (R6, R7, R8). -/
def Context.withLevels (x : Context) (ls : List Level) : Context :=
  { x with levels := ls, depth := ls.length, escape := escapeOf ls, notice := noticeOf ls, bounded := boundedOf ls }

/-- A context as it becomes IDLE: depth, stack, controls, record address, release flag and held mark cleared, the
outermost argument, counters and last abort code kept (R17, R80, R94). -/
def Context.toIdle (x : Context) : Context :=
  { x with
    state := .idle
    depth := 0
    levels := []
    escape := false
    notice := 0
    bounded := false
    recAddr := none
    release := false
    held := none }

/-- A context becomes IDLE. -/
def State.idle (s : State) (c : CtxId) : State := s.setCtx c (s.ctx c).toIdle

/-! ### Slots -/

/-- Every slot on the context's list becomes FREE and the list is emptied (R67, R68). -/
def State.freeSlots (s : State) (c : CtxId) : State :=
  (s.setSlots (Vector.ofFn fun i : SlotId => if (s.order c).contains i then none else s.slots[i])).setOrder c []

/-- Every slot on the context's list goes from STAGED to LOCKED (R66). -/
def State.lockSlots (s : State) (c : CtxId) : State :=
  s.setSlots (Vector.ofFn fun i : SlotId =>
    if (s.order c).contains i then (s.slots[i]).map fun b => { b with locked := true } else s.slots[i])

/-! ### An abort -/

/-- The record image of an abort of `c`, formed from the state before it (`s`) and the Contention Unit's counter
after it (R92). -/
def State.image (s : State) (c : CtxId) (code : AbortCode) (cause : Option Addr) (party : Option Party)
    (counter : Nat) : Image :=
  let x := s.ctx c
  { code := code
    depth := x.depth
    ctx := c
    bounded := x.bounded
    notice := x.notice
    cause := cause
    party := party
    lifetime := x.lifetime
    slots := (s.order c).length
    reads := (s.reads c).length
    cycles := x.cycles
    counter := counter
    relation := s.relation c
    outerArg := x.outerArg }

/-- Where an aborted context goes, and its record job at the tail of the queue when it captured a record address
(R94, R99). -/
def State.abortGoesTo (s : State) (c : CtxId) (code : AbortCode) (image : Image) : State :=
  let x := { s.ctx c with lastCode := some code }
  match x.recAddr with
  | some a =>
    (s.setCtx c { x with state := .aborting }).setJobs (s.jobs ++ [⟨c, .record a image, .waiting⟩])
  | none =>
    if x.release then s.setCtx c x.toIdle else s.setCtx c { x with state := .doomed }

/-- An abort taken on an OPEN context, block by block (R91). -/
def State.takeAbort (s : State) (c : CtxId) (code : AbortCode) (cause : Option Addr) (party : Option Party) :
    State :=
  let x := s.ctx c
  let s1 := s.abortNotice c code x.bounded
  let image := s.image c code cause party (s1.counters.get c)
  let s2 := ((s1.freeSlots c).setReads c []).setAges (s1.ages.filter fun d => d ≠ c)
  let s3 := if noticeAllows x.notice code.cls then s2.setFlags (s2.served c) .notice else s2
  s3.abortGoesTo c code image

/-- An abort request: it takes effect only if the context is OPEN when it is taken (R88). -/
def State.abort (s : State) (c : CtxId) (code : AbortCode) (cause : Option Addr := none)
    (party : Option Party := none) : State :=
  if (s.ctx c).state = .opened then s.takeAbort c code cause party else s

/-- The abort requests that one claim raises on several contexts, each its own claim, in an order the part does not
fix (R98; log entry 8). -/
def State.abortAll (s : State) (cs : List CtxId) (code : AbortCode) (cause : Option Addr := none)
    (party : Option Party := none) : State :=
  let (order, s1) := s.inFreeOrder cs
  order.foldl (fun t c => t.abort c code cause party) s1

/-- An invasion: every OPEN context whose footprint holds the line is aborted with INVADED (R46, R47, R48). -/
def State.invade (s : State) (l : Line) (cause : Addr) (party : Party) : State :=
  s.abortAll (s.holders l) .invaded (some cause) (some party)

end Sys2Proof.Machine
end

