-- ==== Sys2Proof/Machine/Engine.lean ====
section
/-! DEFINITION. The Commit Engine: read-out, burst forming, job start, commit finish, record finish and the drain
condition (04_commit.md, sections 5.5 and 11.4). -/

namespace Sys2Proof.Machine

/-! ### The burst of a commit line -/

/-- The word numbers of a line, 0 to 7. -/
def lineWords : List Nat := [0, 1, 2, 3, 4, 5, 6, 7]

/-- The byte of a slot at an offset, when its mask bit is set (R54). -/
def SlotBody.byteAt (b : SlotBody) (k : Nat) : Option StoredByte := (b.bytes[k]?).join

/-- A word of the line holds a written byte. -/
def SlotBody.wordWritten (b : SlotBody) (w : Nat) : Bool :=
  [0, 1, 2, 3].any fun n => (b.byteAt (4 * w + n)).isSome

/-- Word `w` of the line as a beat: written bytes enabled, the other lanes 00h and not enabled (R76). -/
def SlotBody.beat (b : SlotBody) (w : Nat) : BurstBeat where
  en := laneBits fun n => (b.byteAt (4 * w + n)).isSome
  data := laneWord fun n => (b.byteAt (4 * w + n)).elim 0 StoredByte.val

/-- The smallest of 1, 2, 4 and 8 for which words `f` and `l` lie in one aligned block of that many words (R76). -/
def burstLength (f l : Nat) : Nat :=
  if f = l then 1 else if f / 2 = l / 2 then 2 else if f / 4 = l / 4 then 4 else 8

/-- The burst that covers the written words of a slot (R76). -/
def SlotBody.commitBurst (b : SlotBody) : Burst :=
  let ws := lineWords.filter b.wordWritten
  let f := ws.head?.getD 0
  let l := ws.getLast?.getD 0
  let n := burstLength f l
  let start := f / n * n
  { write := true
    addr := beatAddr (lineAddr b.line) start
    beats := (List.range n).map fun i => b.beat (start + i) }

/-- No written byte of the slot has a storage error (R54, R66). -/
def SlotBody.good (b : SlotBody) : Bool :=
  b.bytes.toList.all fun e => e.all fun x => byteParity x.val == x.par

/-- The read-out of a slot: its burst, or none when it is handed over as failed (R66, R75). -/
def State.readOut (s : State) (i : SlotId) : Option Burst :=
  match s.slots[i] with
  | some b => if b.good then some b.commitBurst else none
  | none => none

/-- What the lines' turns come to: a request for a burst, or the end of the commit. -/
inductive CommitTurn where
  | request (burst : Burst) (remaining failed pos : Nat)
  | finished (failed : Nat)
deriving DecidableEq, Repr

/-- The turns of the slots still on the list: a slot handed over as failed ends its turn at once, a good one forms
its burst (R75, R79). -/
def State.commitTurns (s : State) : List SlotId → Nat → Nat → Nat → CommitTurn
  | [], _, failed, _ => .finished failed
  | i :: rest, remaining, failed, pos =>
    match s.readOut i with
    | some b => .request b remaining failed pos
    | none => s.commitTurns rest (remaining - 1) (failed + 1) (pos + 1)

/-! ### Quiesce -/

/-- The drain condition: no context OPEN, COMMITTING or ABORTING and the job queue empty (R183). -/
def State.drained (s : State) : Bool :=
  s.jobs.isEmpty && four.all fun c => (s.ctx c).state = .idle || (s.ctx c).state = .doomed

/-- The drain condition is tested in DRAINING; when it holds the bridge becomes QUIESCED (R183). -/
def State.drainTest (s : State) : State :=
  if s.bridge = .draining && s.drained then s.setBridge .quiesced else s

/-! ### Ends of jobs -/

/-- A held CLOSE is answered: the port's cycle ends with DONE and the result word (R18, R155). -/
def State.answerHeld (s : State) (p : PortId) (w : Word) : State :=
  (s.respond p [.word w]).setCycle p none

/-- Commit finish, the job already taken from the queue: slots freed, flags for a TORN commit, the held CLOSE
answered, the context IDLE (R80, R81). -/
def State.commitFinish (s : State) (c : CtxId) (failed : Nat) : State :=
  let s1 := s.freeSlots c
  let s2 := if failed = 0 then s1 else (s1.setFlags (s1.served c) .torn).setFlags (s1.served c) .memerr
  let word := if failed = 0 then plainResult .committed else tornResult failed
  let s3 := match (s2.ctx c).held with
    | some p => s2.answerHeld p word
    | none => s2
  (s3.idle c).drainTest

/-- The finish of a record job, already taken from the queue: flags, the held CLOSE answered, and the context to
IDLE or DOOMED (R103). -/
def State.recordFinish (s : State) (c : CtxId) (skipped memErr : Bool) : State :=
  let s1 := if skipped then s.setFlags (s.served c) .recskip else s
  let s2 := if memErr then s1.setFlags (s1.served c) .memerr else s1
  let x := s2.ctx c
  let s3 := match x.held with
    | some p => (s2.answerHeld p (abortResult .aborted x.lastCode x.depth)).idle c
    | none => if x.release then s2.idle c else s2.setCtx c { x with state := .doomed }
  s3.drainTest

/-! ### Job start -/

/-- The given queue is put in place and its head starts, or takes its next line's turn; a job that ends at once
hands over to the next (R73, R75, R79, R100). -/
def State.engineRun (s : State) : List Job → State
  | [] => s.setJobs []
  | j :: rest =>
    match j.work with
    | .commit remaining failed pos =>
      match s.commitTurns ((s.order j.ctx).drop pos) remaining failed pos with
      | .request b r f q => s.setJobs ({ j with work := .commit r f q, phase := .requesting b } :: rest)
      | .finished f => ((s.setJobs rest).commitFinish j.ctx f).engineRun rest
    | .record a image =>
      if s.kindOf (lineOf a) = .blocked then
        ((s.setJobs rest).recordFinish j.ctx true false).engineRun rest
      else s.setJobs ({ j with phase := .requesting (recordBurst a image) } :: rest)

/-- A head of the queue that waits is started; a started one is left as it stands (R73). -/
def State.kick (s : State) : State :=
  match s.jobs with
  | [] => s
  | j :: rest => if j.phase = .waiting then s.engineRun (j :: rest) else s

end Sys2Proof.Machine
end

