-- ==== Sys2Proof/Machine/Arbiter.lean ====
section
/-! DEFINITION. The Memory Port's arbiter: the grant decision and its grants (section 10.3), and the lines the bus
drives (section 10.1). -/

namespace Sys2Proof.Machine

/-- The search order M0, M1, M2, M3, E round the circle, starting after the last winner (R165). -/
def searchOrder : Requester → List Requester
  | .port 0 => [.port 1, .port 2, .port 3, .engine, .port 0]
  | .port 1 => [.port 2, .port 3, .engine, .port 0, .port 1]
  | .port 2 => [.port 3, .engine, .port 0, .port 1, .port 2]
  | .port 3 => [.engine, .port 0, .port 1, .port 2, .port 3]
  | .engine => [.port 0, .port 1, .port 2, .port 3, .engine]

/-- The Commit Engine's standing request: the burst of a head job that is REQUESTING (R77, R100, R164). -/
def State.engineReq (s : State) : Option Burst :=
  match s.jobs with
  | ⟨_, _, .requesting b⟩ :: _ => some b
  | _ => none

/-- A requester has a request standing (R164). -/
def State.stands (s : State) : Requester → Bool
  | .port p => (s.reqs.get p).isSome
  | .engine => s.engineReq.isSome

/-- A closing request stands for the requester (R167). -/
def State.standsClosing (s : State) : Requester → Bool
  | .port p => (s.reqs.get p).any Request.closing
  | .engine => false

/-- Some port holds a lock reservation: one for each open pair (R164, R166). -/
def State.reserved (s : State) : Bool := four.any fun p => (s.port p).pair.isSome

/-- A standing request may be granted: while a reservation stands, only those of reserving ports (R165, R166). -/
def State.eligible (s : State) : Requester → Bool
  | .port p => s.stands (.port p) && (!s.reserved || (s.port p).pair.isSome)
  | .engine => s.stands .engine && !s.reserved

/-- The winner of a grant decision: a closing request before all others, else the first eligible in search order
(R165, R167). -/
def State.winner (s : State) : Option Requester :=
  ((searchOrder s.pointer).find? s.standsClosing).or ((searchOrder s.pointer).find? s.eligible)

/-- The bus with a burst just granted (R162, R165). -/
def busOf (owner : Requester) (b : Burst) (closing : Bool) : BusBurst :=
  { owner := owner, burst := b, closing := closing, answered := 0, bad := false, orphan := false }

/-- What a grant comes to: the burst is out, or the grant was given up without a beat (R101). -/
inductive Granted where
  | out (s : State)
  | gaveUp (s : State)
deriving DecidableEq, Repr

/-- The winner's request leaves the standing requests and its burst goes out. A record burst whose line is
commit-locked is given up and its job finishes with RECSKIP; otherwise it first invades the groups that hold its
line (R165, R101, R48). -/
def State.grantTo (s : State) : Requester → Granted
  | .port p =>
    match s.reqs.get p with
    | some r => .out (((s.setReq p none).setPointer (.port p)).setBus
        (some (busOf (.port p) r.burst r.closing)))
    | none => .out s
  | .engine =>
    match s.jobs with
    | ⟨c, work, .requesting b⟩ :: rest =>
      let s1 := s.setPointer .engine
      match work with
      | .commit _ _ _ =>
        .out ((s1.setJobs (⟨c, work, .writing⟩ :: rest)).setBus (some (busOf .engine b false)))
      | .record a _ =>
        if s.commitLocked (lineOf a) then
          .gaveUp (((s1.setJobs rest).recordFinish c true false).engineRun rest)
        else
          .out (((s1.setJobs (⟨c, work, .writing⟩ :: rest)).setBus (some (busOf .engine b false))).invade
            (lineOf a) a (.ctx c))
    | _ => .out s

/-- Grant decisions while the bus is FREE and a request may be granted; a grant given up is followed by the next
decision in the same step (R165). The bound is the number of grants that can be given up, and one more. -/
def State.grants (s : State) : Nat → State
  | 0 => s
  | n + 1 =>
    if s.bus.isSome then s
    else match s.winner with
      | none => s
      | some r => match s.grantTo r with
        | .out t => t
        | .gaveUp t => t.grants n

/-- The grant decision of a step (R165). -/
def State.arbitrate (s : State) : State := s.grants (s.jobs.length + 1)

/-- What follows every claim in its own step: a waiting head of the job queue starts, and the grant decision is
taken (R73, R165; log entries 6 and 7). -/
def State.settle (s : State) : State := s.kick.arbitrate

/-! ### The lines of the memory bus -/

/-- The memory-side lines for the beat whose turn it is (R162, R163). On a read the Memory Port drives neither XD nor
XP, which memory drives then: `none`. -/
structure BusLines where
  xa : Addr
  xk : Bool
  xl : BitVec 2
  xbe : Lanes
  xd : Option Word
  xp : Option Lanes
deriving DecidableEq, Repr

/-- What the Memory Port drives while the bus is BUSY. On a write each lane not enabled carries 00h, and XP is even
parity over every lane; on a read memory drives XD and XP, and the view shows none for them, a placeholder of the
model's own (R162, R163; DESIGN CHOICE, log entry 16). -/
def State.busLines (s : State) : Option BusLines :=
  match s.bus with
  | none => none
  | some b =>
    let beat := (b.burst.beats[b.answered]?).getD ⟨0, 0⟩
    let xd := if b.burst.write then some (maskLanes beat.en beat.data) else none
    some ⟨b.burst.addr, b.burst.write, lenCode b.burst.beats.length, beat.en, xd, xd.map wordParity⟩

end Sys2Proof.Machine
end

