-- ==== Sys2Proof/Machine/Directory.lean ====
section
/-! DEFINITION. How a cycle is taken: the port's own steps, contests, staging, forwarding, group and ungrouped
cycles (02_the_line_directory.md, 03_the_staging_store.md, 09_master_ports_and_marks.md). -/

namespace Sys2Proof.Machine

/-! ### The port takes a cycle -/

/-- The port can begin a cycle: RST# and MnRST# are negated and it has no cycle in progress (R144, R157, R159). -/
def State.takesCycle (s : State) (p : PortId) : Bool :=
  !s.rst && !(s.port p).resetPin && (s.port p).cycle.isNone

/-- A new cycle begins: the answers of the cycle before it are no longer driven (log entry 14). -/
def State.beginCycle (s : State) (p : PortId) : State := s.setPort p { s.port p with answers := [] }

/-- A cycle of port `p` is taken, with what follows in its step; a port that cannot begin one takes nothing
(R144, R157; log entry 4). -/
def State.cycle (s : State) (p : PortId) (f : State → State) : State :=
  if s.takesCycle p then (f (s.beginCycle p)).settle else s

/-- A pair the port holds is broken: pair lock and reservation released, REFUSED set, and the grant decision that
the end of the bar allows (R152, R165; log entry 7). -/
def State.breakPair (s : State) (p : PortId) : State :=
  if (s.port p).pair.isSome then ((s.setPair p none).setFlag p .refused).settle else s

/-! ### The beats of a write arrive -/

/-- The beats of a write received so far: while some are to come they are kept in the cycle in progress, and after
the last the cycle is taken (R145). -/
def State.received (s : State) (p : PortId) (r : RawCycle) (take : RawCycle → State → State) : State :=
  if r.beats.length < beatsOf r.len then s.setCycle p (some ⟨r.kind, r.addr, r.len, .arriving r.beats⟩)
  else (take { r with beats := r.beats.take (beatsOf r.len) } (s.setCycle p none)).settle

/-- Beats of a write of port `p` arrive: they begin a cycle, or go on with one of their kind whose beats are still
arriving, its address and length as they were sampled; any other port takes nothing (R144, R145; log entries 4, 5). -/
def State.arrive (s : State) (p : PortId) (r : RawCycle) (take : RawCycle → State → State) : State :=
  if s.rst || (s.port p).resetPin then s
  else match (s.port p).cycle with
    | none => (s.beginCycle p).received p r take
    | some ⟨kind, addr, len, .arriving got⟩ =>
      if kind = r.kind then s.received p ⟨kind, addr, len, got ++ r.beats⟩ take else s
    | some _ => s

/-! ### Refusals at the port -/

/-- A malformed cycle: ERROR on every beat of a read kind, once otherwise, with REFUSED, and nothing more (R147). -/
def State.refuseMalformed (s : State) (p : PortId) (kind : BitVec 3) (addr : Addr) (n : Nat) : State :=
  let s1 := s.setFlag p .refused
  if readKind kind then s1.answerBeats p kind addr (List.replicate n .readError) else s1.respond p [.error]

/-- A write refused for bad parity: ERROR, PARITY, and the PARITY abort of an OPEN group (R149). -/
def State.refuseParity (s : State) (p : PortId) (addr : Addr) : State :=
  ((s.setFlag p .parity).abort (s.serving p) .parity (some addr)).respond p [.error]

/-! ### Counting -/

/-- A lifetime counter raised by one counted event, and whether that increment is an expiry (R123, R126). -/
def Context.countLife (x : Context) (l : Lifetime) : Context × Bool :=
  let n := min Config.countLimit (x.lifetime + 1)
  ({ x with lifetime := n }, l.limit != 0 && n == l.limit.toNat)

/-- A memory cycle is counted when its serving context is OPEN: the group cycle count (R5) and, in CYCLES mode, the
lifetime counter (R125). The Bool says that the count is an expiry (R126). -/
def State.countCycle (s : State) (p : PortId) : State × Bool :=
  let c := s.serving p
  let x := s.ctx c
  if x.state = .opened then
    let y := { x with cycles := min Config.countLimit (x.cycles + 1) }
    if (s.lifetimes.get c).mode = .cycles then
      let (z, e) := y.countLife (s.lifetimes.get c)
      (s.setCtx c z, e)
    else (s.setCtx c y, false)
  else (s, false)

/-- The expiry of a counted cycle, raised after the cycle has been processed (R126, R148 step 8). -/
def State.expire (s : State) (c : CtxId) (expired : Bool) : State :=
  if expired then s.abort c .timeout else s

/-! ### Requests of a port at the Memory Port -/

/-- The read cycle's beats with nothing staged. -/
def plainBeats (ens : List Lanes) : List ReadBeat := ens.map fun e => ⟨e, 0, 0, false⟩

/-- The group that a context has, or had last (log entry 10). -/
def State.groupRef (s : State) (c : CtxId) : GroupRef := ⟨c, (s.ctx c).number⟩

/-- A read goes to memory as one burst of its own shape, the group's read when it names a context (R162, R164, R169). -/
def State.sendRead (s : State) (p : PortId) (kind : BitVec 3) (addr : Addr) (beats : List ReadBeat)
    (group : Option CtxId) : State :=
  (s.setCycle p (some ⟨kind, addr, lenCode beats.length, .reading beats (group.map s.groupRef)⟩)).setReq p
    (some ⟨⟨false, addr, beats.map fun b => ⟨b.en, 0⟩⟩, false⟩)

/-- The burst of a write cycle; lanes not enabled carry 00h (R162). -/
def writeBurst (addr : Addr) (beats : List WriteBeat) : Burst :=
  ⟨true, addr, beats.map fun b => ⟨b.en, maskLanes b.en b.data⟩⟩

/-- A write goes to memory and is in flight on its line until its burst completes (R34, R164). -/
def State.sendWrite (s : State) (p : PortId) (kind : BitVec 3) (addr : Addr) (beats : List WriteBeat) : State :=
  let s1 := (s.setCycle p (some ⟨kind, addr, lenCode beats.length, .writing beats⟩)).setReq p
    (some ⟨writeBurst addr beats, false⟩)
  s1.setInFlight (s1.inFlight ++ [(p, lineOf addr)])

/-- An ending LOCK-WRITE raises a closing request; it is not in flight in the sense of R34 (R34, R167). -/
def State.sendClosing (s : State) (p : PortId) (addr : Addr) (beat : WriteBeat) : State :=
  (s.setCycle p (some ⟨4, addr, 0, .writing [beat]⟩)).setReq p (some ⟨writeBurst addr [beat], true⟩)

/-! ### Contests -/

/-- `x` is nearer the head of the age list than `h` (R37). -/
def State.older (s : State) (x h : CtxId) : Bool := decide (s.ages.idxOf x < s.ages.idxOf h)

/-- `x` beats the holder `h`: by a HELD token, else by age (R37). -/
def State.beats (s : State) (x h : CtxId) : Bool :=
  if s.token = .held x then true else if s.token = .held h then false else s.older x h

/-- The winner named to a losing `x`: the holder that owns the HELD token, else the holder nearest the head of the
age list (R38). -/
def State.contestWinner (s : State) (hs : List CtxId) : Option CtxId :=
  (hs.find? fun h => s.token = .held h).or (s.ages.find? fun h => hs.contains h)

/-- The other OPEN contexts that hold a line in a way a group write cannot stand beside: their footprint holds it
(section 2.3). -/
def State.writeRivals (s : State) (c : CtxId) (l : Line) : List CtxId := (s.holders l).filter fun h => h ≠ c

/-- The other OPEN contexts in whose write set a line is: the rivals of a group read (section 2.3). -/
def State.readRivals (s : State) (c : CtxId) (l : Line) : List CtxId :=
  four.filter fun h => h ≠ c && (s.ctx h).state = .opened && (s.writes h).contains l

/-- The losers of a won contest are aborted, each naming `c` (R38). -/
def State.contestWon (s : State) (c : CtxId) (rivals : List CtxId) (addr : Addr) : State :=
  s.abortAll rivals .conflict (some addr) (some (.ctx c))

/-- The loser of a lost contest is `c` alone, naming the winner (R37, R38). -/
def State.contestLost (s : State) (c : CtxId) (rivals : List CtxId) (addr : Addr) : State :=
  s.abort c .conflict (some addr) ((s.contestWinner rivals).map .ctx)

/-! ### Staging -/

/-- The byte that a write stores at an offset of its line, when a beat of it enables that byte (R57). -/
def writtenAt (addr : Addr) (beats : List WriteBeat) (k : Nat) : Option StoredByte :=
  let base := addr.toNat % 32
  if k < base then none
  else match beats[(k - base) / 4]? with
    | none => none
    | some b =>
      let n := (k - base) % 4
      if b.en.getLsbD n then some ⟨laneByte b.data n, b.par.getLsbD n⟩ else none

/-- The enabled bytes of a write merged over a slot's bytes (R57). -/
def mergeBytes (addr : Addr) (beats : List WriteBeat) (bytes : Vector (Option StoredByte) 32) :
    Vector (Option StoredByte) 32 :=
  bytes.mapIdx fun k old => (writtenAt addr beats k).or old

/-- No beat of the write enables a byte (R57). -/
def enablesNone (beats : List WriteBeat) : Bool := beats.all fun b => b.en == 0

/-- The lowest-numbered FREE slot (R58). -/
def State.freeSlot (s : State) : Option SlotId := (List.finRange 48).find? fun i => (s.slots[i]).isNone

/-- A slot is allocated for the context and the line, with a clear mask (R58). -/
def State.allocate (s : State) (c : CtxId) (l : Line) (i : SlotId) : State :=
  (s.setSlot i (some ⟨false, c, l, Vector.replicate 32 none⟩)).setOrder c (s.order c ++ [i])

/-- The enabled bytes of a write are stored in a slot (R57). -/
def State.storeBytes (s : State) (i : SlotId) (addr : Addr) (beats : List WriteBeat) : State :=
  match s.slots[i] with
  | some b => s.setSlot i (some { b with bytes := mergeBytes addr beats b.bytes })
  | none => s

/-- A group write is taken by the Staging Store: merged, staged in a new slot, or refused for capacity (R57, R58,
R59). It is answered DONE in each case. -/
def State.stage (s : State) (c : CtxId) (addr : Addr) (beats : List WriteBeat) : State :=
  if enablesNone beats then s
  else match s.slotOf c (lineOf addr) with
    | some i => s.storeBytes i addr beats
    | none =>
      if (s.order c).length < s.caps.get c then
        match s.freeSlot with
        | some i => (s.allocate c (lineOf addr) i).storeBytes i addr beats
        | none => s.abort c .capacity (some addr)
      else s.abort c .capacity (some addr)

/-! ### Group writes -/

/-- The footprint of a bounded group is full and does not hold the line (R31). -/
def State.boundsFull (s : State) (c : CtxId) (l : Line) : Bool :=
  (s.ctx c).bounded && !s.inFootprint c l && decide (Config.boundedLimit ≤ s.footprintSize c)

/-- A group write to a TRACKED line that is not locked, up to its answer (R44). -/
def State.trackedWrite (s : State) (c : CtxId) (addr : Addr) (beats : List WriteBeat) : State :=
  let l := lineOf addr
  let rivals := s.writeRivals c l
  if (s.writes c).contains l then s.stage c addr beats
  else if s.boundsFull c l then s.abort c .bounds (some addr)
  else if rivals.isEmpty then s.stage c addr beats
  else if rivals.all (s.beats c) then (s.contestWon c rivals addr).stage c addr beats
  else s.contestLost c rivals addr

/-- A group write of context `c` from port `p` (R36, R43, R44). It is answered in the step that takes it (R146), so a
port reset right after it finds no cycle to drop (R160; DESIGN CHOICE, log entry 23). -/
def State.groupWrite (s : State) (c : CtxId) (p : PortId) (addr : Addr) (beats : List WriteBeat) : State :=
  if s.lockedFor p (lineOf addr) then s.respond p [.retry]
  else match s.kindOf (lineOf addr) with
    | .blocked => (s.abort c .blocked (some addr)).respond p [.error]
    | .pass =>
      if (s.ctx c).escape then s.sendWrite p 2 addr beats
      else (s.abort c .untracked (some addr)).respond p [.done]
    | .tracked => (s.trackedWrite c addr beats).respond p [.done]

/-! ### Forwarded reads -/

/-- The staged bytes that a read copies from a slot for one beat, and whether one has a storage error (R61). -/
def SlotBody.readBeat (b : SlotBody) (addr : Addr) (i : Nat) (en : Lanes) : ReadBeat :=
  let byte := fun n => if en.getLsbD n then b.byteAt (byteOffset addr i n) else none
  { en := en
    staged := laneBits fun n => (byte n).isSome
    data := laneWord fun n => (byte n).elim 0 StoredByte.val
    failed := [0, 1, 2, 3].any fun n => (byte n).any fun x => byteParity x.val != x.par }

/-- The beats of a forwarded read (R61). -/
def SlotBody.readBeats (b : SlotBody) (addr : Addr) (ens : List Lanes) : List ReadBeat :=
  ens.mapIdx fun i en => b.readBeat addr i en

/-- A read whose staged bytes have a storage error: MEMERR for the group, then the read from memory, untracked, the
bad beats to be answered ERROR (R65). -/
def State.forwardFailed (s : State) (c : CtxId) (p : PortId) (addr : Addr) (beats : List ReadBeat) : State :=
  (s.abort c .memerr (some (beatAddr addr (beats.findIdx ReadBeat.failed)))).sendRead p 1 addr
    (beats.map fun b => { b with staged := 0, data := 0 }) none

/-- A forwarded read is served from the slot alone, or merged over one memory burst (R61, R62, R63, R65). -/
def State.forward (s : State) (c : CtxId) (p : PortId) (addr : Addr) (ens : List Lanes) (b : SlotBody) : State :=
  let beats := b.readBeats addr ens
  if beats.any ReadBeat.failed then s.forwardFailed c p addr beats
  else if beats.all fun r => r.staged == r.en then s.answerBeats p 1 addr (beats.map fun r => .word r.data)
  else s.sendRead p 1 addr beats (some c)

/-! ### Group reads -/

/-- The line joins the read set; a line already in it is not added again (R29). -/
def State.joinReads (s : State) (c : CtxId) (l : Line) : State :=
  if (s.reads c).contains l then s else s.setReads c (s.reads c ++ [l])

/-- A group read of a line in the context's own write set (R40, first case). -/
def State.ownWriteRead (s : State) (c : CtxId) (p : PortId) (addr : Addr) (ens : List Lanes) (i : SlotId) : State :=
  let l := lineOf addr
  if !(s.reads c).contains l && decide (Config.readSetLimit ≤ (s.reads c).length) then
    (s.abort c .capacity (some addr)).sendRead p 1 addr (plainBeats ens) none
  else match s.slots[i] with
    | some b => (s.joinReads c l).forward c p addr ens b
    | none => s.sendRead p 1 addr (plainBeats ens) (some c)

/-- A group read of a TRACKED line that is not in the context's footprint, up to the read itself (R41). -/
def State.newLineRead (s : State) (c : CtxId) (addr : Addr) : State :=
  let l := lineOf addr
  let rivals := s.readRivals c l
  if s.boundsFull c l then s.abort c .bounds (some addr)
  else if Config.readSetLimit ≤ (s.reads c).length then s.abort c .capacity (some addr)
  else if rivals.isEmpty then s.joinReads c l
  else if rivals.all (s.beats c) then (s.contestWon c rivals addr).joinReads c l
  else s.contestLost c rivals addr

/-- A group read of context `c` from port `p` (R36, R39, R40, R41). -/
def State.groupRead (s : State) (c : CtxId) (p : PortId) (addr : Addr) (ens : List Lanes) : State :=
  let l := lineOf addr
  if s.lockedFor p l then s.respond p [.retry]
  else match s.kindOf l with
    | .blocked => (s.abort c .blocked (some addr)).answerBeats p 1 addr (List.replicate ens.length .readError)
    | .pass => s.sendRead p 1 addr (plainBeats ens) (some c)
    | .tracked =>
      match s.slotOf c l with
      | some i => s.ownWriteRead c p addr ens i
      | none =>
        if (s.reads c).contains l then s.sendRead p 1 addr (plainBeats ens) (some c)
        else (s.newLineRead c addr).sendRead p 1 addr (plainBeats ens) (some c)

/-! ### Ungrouped and locked cycles -/

/-- An ungrouped read (R45). -/
def State.ungroupedRead (s : State) (p : PortId) (addr : Addr) (ens : List Lanes) : State :=
  let l := lineOf addr
  if s.kindOf l = .blocked then
    (s.setFlag p .refused).answerBeats p 1 addr (List.replicate ens.length .readError)
  else if s.lockedFor p l then s.respond p [.retry]
  else s.sendRead p 1 addr (plainBeats ens) none

/-- The line is TRACKED and in the footprint of the OPEN context that holds the token HELD (R46 case 3, R138). -/
def State.heldOwnerHas (s : State) (l : Line) : Bool :=
  s.kindOf l = .tracked && (s.holders l).any fun c => s.token = .held c

/-- The order in which an ungrouped MEM-WRITE or a LOCK-READ is taken: BLOCKED, locks, the HELD token, invasion, and
only then `go` (R46). -/
def State.intrude (s : State) (p : PortId) (addr : Addr) (refusal : Answer) (go : State → State) : State :=
  let l := lineOf addr
  if s.kindOf l = .blocked then (s.setFlag p .refused).respond p [refusal]
  else if s.lockedFor p l then s.respond p [.retry]
  else if s.heldOwnerHas l then s.respond p [.retry]
  else go (if s.kindOf l = .tracked then s.invade l addr (.port p) else s)

/-- An ungrouped MEM-WRITE, or a LOCK-WRITE taken as one (R46, R47). -/
def State.ungroupedWrite (s : State) (p : PortId) (kind : BitVec 3) (addr : Addr) (beats : List WriteBeat) : State :=
  s.intrude p addr .error fun t => t.sendWrite p kind addr beats

/-- A LOCK-READ as a locked cycle: let through, it opens the pair with its lock and reservation (R46, R150). -/
def State.lockedRead (s : State) (p : PortId) (addr : Addr) (en : Lanes) : State :=
  s.intrude p addr .readError fun t =>
    (t.setPair p (some (lineOf addr))).sendRead p 3 addr (plainBeats [en]) none

/-- The ending LOCK-WRITE with good parity: the pair ends, its closing request is raised, and every OPEN context
whose footprint holds the line is invaded (R47, R151, R167). -/
def State.endingWrite (s : State) (p : PortId) (addr : Addr) (beat : WriteBeat) : State :=
  ((s.setPair p none).invade (lineOf addr) addr (.port p)).sendClosing p addr beat

end Sys2Proof.Machine
end

