-- ==== Sys2Proof/Machine/Marks.lean ====
section
/-! DEFINITION. The meanings of the marks OPEN, CLOSE, DROP, RECADDR, STATUS and GETCFG. -/

namespace Sys2Proof.Machine

/-- A read mark is answered DONE with a result word (R146). -/
def State.result (s : State) (p : PortId) (w : Word) : State := s.respond p [.word w]

/-- A read mark is refused: ERROR with REFUSED (R154). -/
def State.refuseReadMark (s : State) (p : PortId) : State := (s.setFlag p .refused).respond p [.readError]

/-- A write mark is refused: ERROR with the given flag (R154). -/
def State.refuseWriteMark (s : State) (p : PortId) (f : Flag) : State := (s.setFlag p f).respond p [.error]

/-- A read mark collides: COLLISION, and DONE with outcome COLLIDED (R11). -/
def State.collideRead (s : State) (p : PortId) : State :=
  (s.setFlag p .collision).result p (plainResult .collided)

/-- The context is on hold: COMMITTING or ABORTING (R11). -/
def State.onHold (s : State) (c : CtxId) : Bool :=
  (s.ctx c).state = .committing || (s.ctx c).state = .aborting

/-- A write mark at its port: the pair is broken, the data word's parity checked, then the collision check, and only
then the mark's own handling (R148, R149, R154). -/
def State.writeMark (s : State) (p : PortId) (code : Nat) (arg : Arg) (data : Word) (par : Lanes)
    (f : State → State) : State :=
  let s1 := s.breakPair p
  if !beatGood 0xF data par then s1.refuseParity p (markAddr code arg)
  else if s1.onHold (s1.serving p) then s1.refuseWriteMark p .collision
  else f s1

/-! ### OPEN -/

/-- The level that an OPEN pushes: an inner level with BOUNDED set gets escape 0, and every inner level bounded 0
(R6). -/
def levelOf (arg : Arg) (inner : Bool) : Level where
  bounded := argBounded arg && !inner
  escape := argEscape arg && !(inner && argBounded arg)
  notice := argNotice arg

/-- The context of a group just started, with the record address captured from the port (R13, R22). -/
def Context.started (x : Context) (arg : Arg) (rec : Option Addr) : Context :=
  { x.withLevels [levelOf arg false] with
    state := .opened
    outerArg := arg
    recAddr := rec
    lifetime := 1
    cycles := 0
    number := x.number + 1 }

/-- An OPEN taken in IDLE (R13). -/
def State.outermostOpen (s : State) (c : CtxId) (p : PortId) (arg : Arg) : State :=
  if openArgLegal arg then
    let x := (s.ctx c).started arg (s.port p).pendRec
    let s1 := (s.setCtx c x).setAges (s.ages ++ [c])
    (s1.openNotice c x.bounded).result p (depthResult .started 1)
  else s.result p (plainResult .spec)

/-- An OPEN that aborts its own group is answered ABORTED at once, with the depth before it (R14). -/
def State.openAborts (s : State) (c : CtxId) (p : PortId) (code : AbortCode) : State :=
  (s.abort c code).result p (abortResult .aborted (some code) (s.ctx c).depth)

/-- An OPEN taken in OPEN (R14). -/
def State.innerOpen (s : State) (c : CtxId) (p : PortId) (arg : Arg) : State :=
  let x := s.ctx c
  if x.bounded then s.openAborts c p .bounds
  else if x.depth = Config.depthLimit then s.openAborts c p .depth
  else if openArgLegal arg then
    let y := x.withLevels (levelOf arg true :: x.levels)
    (s.setCtx c y).result p (depthResult .entered y.depth)
  else s.result p (plainResult .spec)

/-- An OPEN mark, its pair already broken: the checks in order (R12). -/
def State.takeOpen (s : State) (p : PortId) (arg : Arg) : State :=
  let c := s.serving p
  let x := s.ctx c
  if s.onHold c then s.collideRead p
  else if s.bridge ≠ .running then s.result p (plainResult .quiesced)
  else match x.state with
    | .doomed => s.result p (abortResult .doomed x.lastCode x.depth)
    | .idle => s.outermostOpen c p arg
    | .opened => s.innerOpen c p arg
    | .committing | .aborting => s

/-- An OPEN mark is taken (R148, R152). -/
def State.openCycle (s : State) (p : PortId) (arg : Arg) : State := (s.breakPair p).takeOpen p arg

/-- OPEN (R12). -/
def execMarkOpen (p : PortId) (arg : Arg) (s : State) : Host.Outcome State Fault Refusal :=
  .next (s.cycle p fun t => t.openCycle p arg)

/-! ### CLOSE -/

/-- A held CLOSE as its port's cycle in progress; its argument is zero (R15, R155, R186). -/
def Cycle.heldClose : Cycle := ⟨5, markAddr 2 0, 0, .held⟩

/-- The CLOSE of a port becomes its context's held mark and stays the port's cycle in progress (R155). -/
def State.holdClose (s : State) (c : CtxId) (p : PortId) : State :=
  (s.setCtx c { s.ctx c with held := some p }).setCycle p (some .heldClose)

/-- The end of OPEN at an outermost CLOSE: off the age list, the read set cleared, the Contention Unit told of a
commit (R16, R69). -/
def State.leaveOpen (s : State) (c : CtxId) : State :=
  ((s.setReads c []).setAges (s.ages.filter fun d => d ≠ c)).commitNotice c

/-- Commit start: slots locked, COMMITTING, a commit job at the tail, the CLOSE held (R69). -/
def State.commitStart (s : State) (c : CtxId) (p : PortId) : State :=
  let n := (s.order c).length
  let s1 := (s.leaveOpen c).lockSlots c
  let s2 := s1.setCtx c { s1.ctx c with state := .committing }
  (s2.setJobs (s2.jobs ++ [⟨c, .commit n 0 0, .waiting⟩])).holdClose c p

/-- The outermost CLOSE (R16). -/
def State.outermostClose (s : State) (c : CtxId) (p : PortId) : State :=
  if (s.order c).isEmpty then ((s.leaveOpen c).idle c).result p (plainResult .committed)
  else s.commitStart c p

/-- A CLOSE taken in OPEN: above depth 1 it leaves a level, at depth 1 it is the outermost (R15, R16). -/
def State.closeOpen (s : State) (c : CtxId) (p : PortId) : State :=
  let x := s.ctx c
  if 1 < x.depth then
    let y := x.withLevels x.levels.tail
    (s.setCtx c y).result p (depthResult .left y.depth)
  else s.outermostClose c p

/-- A CLOSE mark, its pair already broken: the checks in order (R15, R17). -/
def State.takeClose (s : State) (p : PortId) (arg : Arg) : State :=
  let c := s.serving p
  let x := s.ctx c
  if x.state = .committing ∨ (x.state = .aborting ∧ x.held.isSome) then s.collideRead p
  else if arg ≠ 0 then s.result p (plainResult .spec)
  else match x.state with
    | .idle => s.result p (plainResult .notOpen)
    | .opened => s.closeOpen c p
    | .aborting => s.holdClose c p
    | .doomed => (s.idle c).result p (abortResult .aborted x.lastCode x.depth)
    | .committing => s

/-- A CLOSE mark is taken (R148, R152). -/
def State.closeCycle (s : State) (p : PortId) (arg : Arg) : State := (s.breakPair p).takeClose p arg

/-- CLOSE (R15). -/
def execMarkClose (p : PortId) (arg : Arg) (s : State) : Host.Outcome State Fault Refusal :=
  .next (s.cycle p fun t => t.closeCycle p arg)

/-! ### DROP and RECADDR -/

/-- DROP after parity and collision (R20). -/
def State.takeDrop (s : State) (p : PortId) (arg : Arg) (data : Word) : State :=
  let c := s.serving p
  if !dropLegal arg data then s.refuseWriteMark p .refused
  else if (s.ctx c).state = .opened then (s.abort c (.user (data.extractLsb' 0 8))).respond p [.done]
  else s.refuseWriteMark p .refused

/-- A DROP mark is taken (R148, R149). -/
def State.dropCycle (s : State) (p : PortId) (arg : Arg) (data : Word) (par : Lanes) : State :=
  s.writeMark p 9 arg data par fun t => t.takeDrop p arg data

/-- DROP (R20). -/
def execMarkDrop (p : PortId) (arg : Arg) (data : Word) (par : Lanes) (s : State) :
    Host.Outcome State Fault Refusal :=
  .next (s.cycle p fun t => t.dropCycle p arg data par)

/-- RECADDR after parity and collision (R21). -/
def State.takeRecAddr (s : State) (p : PortId) (arg : Arg) (data : Word) : State :=
  if recAddrLegal arg data then
    (s.setPort p { s.port p with pendRec := recAddrValue data }).respond p [.done]
  else s.refuseWriteMark p .refused

/-- A RECADDR mark is taken (R148, R149). -/
def State.recAddrCycle (s : State) (p : PortId) (arg : Arg) (data : Word) (par : Lanes) : State :=
  s.writeMark p 10 arg data par fun t => t.takeRecAddr p arg data

/-- RECADDR (R21). -/
def execMarkRecAddr (p : PortId) (arg : Arg) (data : Word) (par : Lanes) (s : State) :
    Host.Outcome State Fault Refusal :=
  .next (s.cycle p fun t => t.recAddrCycle p arg data par)

/-! ### STATUS and GETCFG -/

/-- STATUS, its pair already broken: the word is formed, then the selected flags are cleared (R180). -/
def State.takeStatus (s : State) (p : PortId) (arg : Arg) : State :=
  if arg.extractLsb' 8 8 = 0 then (s.result p (s.statusWord p)).clearFlags p (arg.extractLsb' 0 8)
  else s.refuseReadMark p

/-- A STATUS mark is taken (R148, R152). -/
def State.statusCycle (s : State) (p : PortId) (arg : Arg) : State := (s.breakPair p).takeStatus p arg

/-- STATUS (R180). -/
def execMarkStatus (p : PortId) (arg : Arg) (s : State) : Host.Outcome State Fault Refusal :=
  .next (s.cycle p fun t => t.statusCycle p arg)

/-- GETCFG, its pair already broken (R177). -/
def State.takeGetCfg (s : State) (p : PortId) (item : Arg) : State :=
  if p = s.cfgPort then
    match s.cfgValue item.toNat with
    | some w => s.result p w
    | none => s.refuseReadMark p
  else s.refuseReadMark p

/-- A GETCFG mark is taken (R148, R152). -/
def State.getCfgCycle (s : State) (p : PortId) (item : Arg) : State := (s.breakPair p).takeGetCfg p item

/-- GETCFG (R177). -/
def execMarkGetCfg (p : PortId) (item : Arg) (s : State) : Host.Outcome State Fault Refusal :=
  .next (s.cycle p fun t => t.getCfgCycle p item)

end Sys2Proof.Machine
end

