-- ==== Sys2Proof/Machine/Settings.lean ====
section
/-! DEFINITION. The meanings of SETCFG, item by item (11_configuration_faults_and_quiesce.md and the rule of each
item). -/

namespace Sys2Proof.Machine

/-- The conditions that every item shares: from the configuration port, every context IDLE, the job queue empty
(R174 case 3). -/
def State.configurable (s : State) (p : PortId) : Bool :=
  p = s.cfgPort && four.all (fun c => (s.ctx c).state = .idle) && s.jobs.isEmpty

/-- A SETCFG after parity and collision: accepted when the shared conditions hold and the value is legal, refused
with ERROR and CFGREJ otherwise (R174). `apply` answers none for an illegal value. -/
def State.takeSetCfg (s : State) (p : PortId) (apply : State → Option State) : State :=
  if s.configurable p then
    match apply s with
    | some t => t.respond p [.done]
    | none => s.refuseWriteMark p .cfgrej
  else s.refuseWriteMark p .cfgrej

/-- A SETCFG mark of an item is taken, the mark code being 11 (R174, R186). -/
def State.setCfgCycle (s : State) (p : PortId) (item : Arg) (data : Word) (par : Lanes)
    (apply : State → Option State) : State :=
  s.writeMark p 11 item data par fun t => t.takeSetCfg p apply

/-- A SETCFG mark of an item, from its port (R174). -/
def State.setCfg (s : State) (p : PortId) (item : Arg) (data : Word) (par : Lanes)
    (apply : State → Option State) : State :=
  s.cycle p fun t => t.setCfgCycle p item data par apply

/-! ### Items 00h to 07h: regions (R109) -/

/-- Two regions share a line. -/
def Region.overlaps (a b : Region) : Bool :=
  decide (a.base.toNat < b.base.toNat + b.lines ∧ b.base.toNat < a.base.toNat + a.lines)

/-- A region's exponent and base are legal: exponent 5 to 28, base a multiple of the size in lines (R109). -/
def Region.legal (r : Region) : Bool :=
  decide (5 ≤ r.exp.toNat ∧ r.exp.toNat ≤ 28) && r.base.toNat % r.lines == 0

/-- The kind that a kind code names; code 0 names no kind (R109). -/
def kindOfCode (code : BitVec 2) : Option Kind :=
  if code = 1 then some .tracked else if code = 2 then some .pass else if code = 3 then some .blocked else none

/-- The region shares no line with any other present entry (R109). -/
def State.clearOfOthers (s : State) (k : Fin 8) (r : Region) : Bool :=
  (List.finRange 8).all fun j => j == k || !((s.regions[j]).any r.overlaps)

/-- Item k, 00h to 07h (R109, 12.6). -/
def State.applyRegion (s : State) (k : Fin 8) (data : Word) : Option State :=
  if data.extractLsb' 30 2 ≠ 0 then none
  else match kindOfCode (data.extractLsb' 28 2) with
    | none => some { s with regions := s.regions.set k none }
    | some kind =>
      let r : Region := ⟨data.extractLsb' 0 23, data.extractLsb' 23 5, kind⟩
      if r.legal && s.clearOfOthers k r then some { s with regions := s.regions.set k (some r) } else none

/-! ### Item 08h: pairing (R175) -/

/-- A pair made JOINED takes its upper context out of escalation; a pair made or left otherwise changes nothing in
the Contention Unit (R132). -/
def State.joinUpper (s : State) (was now : Bool) (upper : CtxId) : State :=
  if now && !was then s.leaveEscalation upper else s

/-- Item 08h (R175). -/
def State.applyPairing (s : State) (data : Word) : Option State :=
  if data.extractLsb' 2 30 ≠ 0 then none
  else
    let a := data.getLsbD 0
    let b := data.getLsbD 1
    let t := { s with joinA := a, joinB := b }
    some ((t.joinUpper s.joinA a 1).joinUpper s.joinB b 3)

/-! ### Items 09h to 0Ch: lifetime settings (R122) -/

/-- Item 09h + c (R122). -/
def State.applyLifetime (s : State) (c : CtxId) (data : Word) : Option State :=
  if data.extractLsb' 17 15 ≠ 0 ∨ data.extractLsb' 0 16 = (1 : BitVec 16) then none
  else some { s with
    lifetimes := s.lifetimes.set c ⟨data.extractLsb' 0 16, if data.getLsbD 16 then .cycles else .time⟩ }

/-! ### Item 0Dh: slot caps (R56) -/

/-- A cap is legal: 1 to 48 (R56). -/
def capLegal (b : Byte) : Bool := decide (1 ≤ b.toNat ∧ b.toNat ≤ 48)

/-- Item 0Dh (R56). -/
def State.applyCaps (s : State) (data : Word) : Option State :=
  let b := fun n => laneByte data n
  if [0, 1, 2, 3].all fun n => capLegal (b n) then
    some { s with caps := ⟨(b 0).toNat, (b 1).toNat, (b 2).toNat, (b 3).toNat⟩ }
  else none

/-! ### Item 0Eh: escalation (R131) -/

/-- Item 0Eh (R131). -/
def State.applyEscalation (s : State) (data : Word) : Option State :=
  if data.extractLsb' 4 4 ≠ 0 ∨ data.extractLsb' 16 16 ≠ 0 then none
  else some (s.setEscalation (data.extractLsb' 0 4) (data.extractLsb' 8 8))

/-! ### Item 0Fh: tick source (R121) -/

/-- Item 0Fh: the source is set and the divisor count restarts (R121). -/
def State.applyTickSource (s : State) (data : Word) : Option State :=
  if data.extractLsb' 3 29 ≠ 0 then none
  else some { s with tickSource := data.extractLsb' 0 3, divisor := 0 }

/-! ### Item 10h: fault masks (R176) -/

/-- Item 10h (R176). -/
def State.applyMasks (s : State) (data : Word) : Option State :=
  if data.extractLsb' 8 24 ≠ 0 then none else some { s with masks := data.extractLsb' 0 8 }

/-- The item that an argument names, applied; none for an undefined item (R173, R174). -/
def State.applyItem (s : State) (item : Nat) (data : Word) : Option State :=
  if h : item < 8 then s.applyRegion ⟨item, h⟩ data
  else if item = 0x08 then s.applyPairing data
  else if item = 0x09 then s.applyLifetime 0 data
  else if item = 0x0A then s.applyLifetime 1 data
  else if item = 0x0B then s.applyLifetime 2 data
  else if item = 0x0C then s.applyLifetime 3 data
  else if item = 0x0D then s.applyCaps data
  else if item = 0x0E then s.applyEscalation data
  else if item = 0x0F then s.applyTickSource data
  else if item = 0x10 then s.applyMasks data
  else none

/-! ### The meanings -/

/-- SETCFG_REGION, items 00h to 07h (R109). -/
def execSetCfgRegion (p : PortId) (k : Fin 8) (data : Word) (par : Lanes) (s : State) :
    Host.Outcome State Fault Refusal :=
  .next (s.setCfg p (BitVec.ofNat 16 k.val) data par fun t => t.applyRegion k data)

/-- SETCFG_PAIRING, item 08h (R175). -/
def execSetCfgPairing (p : PortId) (data : Word) (par : Lanes) (s : State) : Host.Outcome State Fault Refusal :=
  .next (s.setCfg p 0x08 data par fun t => t.applyPairing data)

/-- SETCFG_LIFETIME, items 09h to 0Ch (R122). -/
def execSetCfgLifetime (p : PortId) (c : CtxId) (data : Word) (par : Lanes) (s : State) :
    Host.Outcome State Fault Refusal :=
  .next (s.setCfg p (BitVec.ofNat 16 (0x09 + c.val)) data par fun t => t.applyLifetime c data)

/-- SETCFG_SLOT_CAPS, item 0Dh (R56). -/
def execSetCfgSlotCaps (p : PortId) (data : Word) (par : Lanes) (s : State) : Host.Outcome State Fault Refusal :=
  .next (s.setCfg p 0x0D data par fun t => t.applyCaps data)

/-- SETCFG_ESCALATION, item 0Eh (R131). -/
def execSetCfgEscalation (p : PortId) (data : Word) (par : Lanes) (s : State) :
    Host.Outcome State Fault Refusal :=
  .next (s.setCfg p 0x0E data par fun t => t.applyEscalation data)

/-- SETCFG_TICK_SOURCE, item 0Fh (R121). -/
def execSetCfgTickSource (p : PortId) (data : Word) (par : Lanes) (s : State) :
    Host.Outcome State Fault Refusal :=
  .next (s.setCfg p 0x0F data par fun t => t.applyTickSource data)

/-- SETCFG_FAULT_MASKS, item 10h (R176). -/
def execSetCfgFaultMasks (p : PortId) (data : Word) (par : Lanes) (s : State) :
    Host.Outcome State Fault Refusal :=
  .next (s.setCfg p 0x10 data par fun t => t.applyMasks data)

/-- SETCFG_UNDEFINED_ITEM: an argument that names no item is refused with CFGREJ (R174). An argument that does name
one is that item's SETCFG (log entry 15). -/
def execSetCfgUndefinedItem (p : PortId) (item : Arg) (data : Word) (par : Lanes) (s : State) :
    Host.Outcome State Fault Refusal :=
  .next (s.setCfg p item data par fun t => t.applyItem item.toNat data)

end Sys2Proof.Machine
end

