-- ==== Sys2Proof/Machine/Resets.lean ====
section
/-! DEFINITION. The meanings of the reset rows and of the quiesce rows: PORT_RESET, PORT_RESET_RELEASE, PART_RESET,
PART_RESET_RELEASE, QREQ_ASSERTED, QREQ_NEGATED. -/

namespace Sys2Proof.Machine

/-! ### Quiesce -/

/-- The OPEN contexts. -/
def State.openCtxs (s : State) : List CtxId := four.filter fun c => (s.ctx c).state = .opened

/-- Entry to DRAINING: every OPEN context is aborted with QUIESCE, and the drain condition is tested (R182, R183). -/
def State.enterDraining (s : State) : State :=
  let s1 := s.setBridge .draining
  (s1.abortAll s1.openCtxs .quiesce).drainTest

/-- The assertion of QREQ# as an event: only a RUNNING bridge enters DRAINING (R182). -/
def State.quiesceRequest (s : State) : State := if s.bridge = .running then s.enterDraining else s

/-- QREQ_ASSERTED (R182). While RST# is asserted only the pin's level is kept, and the assertion is taken as RST# is
negated (R184). -/
def execQreqAsserted (s : State) : Host.Outcome State Fault Refusal :=
  let s1 := { s with qreq := true }
  .next (if s.rst then s1 else s1.quiesceRequest.settle)

/-- QREQ_NEGATED: the bridge returns to RUNNING and QACK# is negated (R184). -/
def execQreqNegated (s : State) : Host.Outcome State Fault Refusal :=
  .next { s with qreq := false, bridge := .running }

/-! ### Port reset -/

/-- A write request of the port that stands ungranted is withdrawn from the writes in flight (R34, R157). -/
def State.dropInFlight (s : State) (p : PortId) : State :=
  match s.reqs.get p with
  | some r =>
    if r.burst.write && !r.closing then s.setInFlight (s.inFlight.erase (p, lineOf r.burst.addr)) else s
  | none => s

/-- A burst granted to the port runs to its end at memory, and its answers go to no master (R157, R171). -/
def State.orphanBurst (s : State) (p : PortId) : State :=
  s.setBus (s.bus.map fun b => if b.owner = .port p then { b with orphan := true } else b)

/-- The port's own state set back, but for its flags: cycle, pair, pending record address, answers; MnRST# is
asserted (R144, R157, R158). -/
def State.resetPort (s : State) (p : PortId) : State :=
  let s1 := ((s.dropInFlight p).setReq p none).orphanBurst p
  s1.setPort p { PortState.reset true with flags := (s1.port p).flags }

/-- A held CLOSE that the port carries is discarded (R25, R26). -/
def Context.discardHeld (x : Context) (p : PortId) : Context :=
  if x.held = some p then { x with held := none } else x

/-- What a port reset does to the serving context of a SEPARATE pair (R25). -/
def State.resetSeparate (s : State) (c : CtxId) (p : PortId) : State :=
  let x := s.ctx c
  match x.state with
  | .idle => s
  | .opened => (s.setCtx c { x with release := true }).abort c .portReset
  | .committing => s.setCtx c (x.discardHeld p)
  | .aborting => s.setCtx c { x.discardHeld p with release := true }
  | .doomed => s.idle c

/-- What a port reset does to the shared context of a JOINED pair (R26). -/
def State.resetJoined (s : State) (c : CtxId) (p : PortId) : State :=
  let x := s.ctx c
  match x.state with
  | .idle | .doomed => s
  | .opened => s.abort c .portReset
  | .committing | .aborting => s.setCtx c (x.discardHeld p)

/-- A port reset, its effects in their order: the port, the context, the Contention Unit, and the flags last (R25,
R26, R140, R157, R158, R171). -/
def State.portResetTaken (s : State) (p : PortId) : State :=
  let c := s.serving p
  let s1 := s.resetPort p
  let s2 := if s.joined p then s1.resetJoined c p else s1.resetSeparate c p
  (s2.leaveEscalation c).clearFlags p 0xFF

/-- PORT_RESET (R157). An assertion of a line already asserted is no event (log entry 17). -/
def execPortReset (p : PortId) (s : State) : Host.Outcome State Fault Refusal :=
  .next (if (s.port p).resetPin then s else (s.portResetTaken p).settle)

/-- PORT_RESET_RELEASE: the port begins taking cycles again (R157). -/
def execPortResetRelease (p : PortId) (s : State) : Host.Outcome State Fault Refusal :=
  .next (s.setPort p { s.port p with resetPin := false })

/-! ### Part reset -/

/-- A port after part reset, with the level of its MnRST# pin kept. -/
def State.portsAtReset (s : State) : Four PortState :=
  ⟨.reset (s.port 0).resetPin, .reset (s.port 1).resetPin, .reset (s.port 2).resetPin, .reset (s.port 3).resetPin⟩

/-- PART_RESET: every block at its reset value, the straps sampled, RST# asserted; the levels of the other pins and
what is the model's own stay (R27, R159; log entry 3). -/
def execPartReset (straps : Straps) (s : State) : Host.Outcome State Fault Refusal :=
  .next { State.afterPartReset straps with
    ports := s.portsAtReset
    qreq := s.qreq
    rst := true
    freeCount := s.freeCount
    pending := s.pending }

/-- PART_RESET_RELEASE: ports and divisor go on from here, and a QREQ# found asserted is taken now (R159, R119,
R184). -/
def execPartResetRelease (s : State) : Host.Outcome State Fault Refusal :=
  .next (if s.rst then
    let s1 := { s with rst := false }
    (if s1.qreq then s1.quiesceRequest else s1).settle
  else s)

end Sys2Proof.Machine
end

