-- ==== Sys2Proof/Machine/Ticks.lean ====
section
/-! DEFINITION. The meanings of the rows of time: TICK, TICK_PIN_FALL, LIFETIME_EXPIRY, WINDOW_EXPIRY, and what a part
clock with no command does (07_ticks_and_lifetime.md, 09_master_ports_and_marks.md). -/

namespace Sys2Proof.Machine

/-- The number of part clocks per tick of a divided source: 16, 64, 256 and so on (R118). -/
def clocksPerTick (source : BitVec 3) : Nat := 16 * 4 ^ source.toNat

/-- One context takes a tick: its lifetime counter rises when it is OPEN in mode TIME; the Bool says that this is an
expiry (R124, R126). -/
def State.tickCtx (s : State) (c : CtxId) : State × Bool :=
  if (s.ctx c).state = .opened && (s.lifetimes.get c).mode = .time then
    let (x, e) := (s.ctx c).countLife (s.lifetimes.get c)
    (s.setCtx c x, e)
  else (s, false)

/-- Every context takes the tick, and those that expire by it are listed (R124, R126). -/
def State.tickCtxs (s : State) : List CtxId → State × List CtxId
  | [] => (s, [])
  | c :: rest =>
    let (s1, e) := s.tickCtx c
    let (s2, es) := s1.tickCtxs rest
    (s2, if e then c :: es else es)

/-- What a tick brings about besides the counting: an expiry of a context, or the window timer's tick. -/
inductive TickItem where
  | expiry (c : CtxId)
  | window
deriving DecidableEq, Repr

/-- One of them is taken (R126, R137). -/
def State.takeItem (s : State) : TickItem → State
  | .expiry c => s.abort c .timeout
  | .window => s.windowTick

/-- A tick: the lifetime counters count, and the expiries and the window timer's tick are taken in an order the part
does not fix (R118, R124, R126, R137; log entry 8). -/
def State.takeTick (s : State) : State :=
  let (s1, expired) := s.tickCtxs four
  let (items, s2) := s1.inFreeOrder (expired.map .expiry ++ [.window])
  items.foldl State.takeItem s2

/-- The divisor count reaches N: back to 0, with one tick; with source 7 the count stays at 0 and gives none (R119,
R120). -/
def State.divisorTick (s : State) : State :=
  if s.tickSource = 7 then s else ({ s with divisor := 0 } : State).takeTick

/-- A part-clock sample finds the TICK pin high: with source 7 and the last level low it is a rising edge and gives a
tick; the sample becomes the last level (R120, R119). -/
def State.pinHigh (s : State) : State :=
  let s1 := { s with tickLevel := true }
  if s.tickSource = 7 && !s.tickLevel then s1.takeTick else s1

/-- TICK (R119, R120). While RST# is asserted nothing counts and the last level stays as reset set it (R159). -/
def execTick (cause : TickCause) (s : State) : Host.Outcome State Fault Refusal :=
  .next (if s.rst then s
    else match cause with
      | .divisor => s.divisorTick.settle
      | .pinHigh => s.pinHigh.settle)

/-- TICK_PIN_FALL: a sample finds the pin low (R120). -/
def execTickPinFall (s : State) : Host.Outcome State Fault Refusal :=
  .next (if s.rst then s else { s with tickLevel := false })

/-- The lifetime counter of an OPEN context stands at its limit (R126). -/
def State.lifetimeDue (s : State) (c : CtxId) : Bool :=
  (s.ctx c).state = .opened && (s.lifetimes.get c).limit != 0 &&
    (s.ctx c).lifetime == (s.lifetimes.get c).limit.toNat

/-- LIFETIME_EXPIRY: the TIMEOUT request of a context whose counter has reached its limit; nothing when it has not
(R126; log entry 6). -/
def execLifetimeExpiry (c : CtxId) (s : State) : Host.Outcome State Fault Refusal :=
  .next (if s.lifetimeDue c then (s.abort c .timeout).settle else s)

/-- WINDOW_EXPIRY: the window timer of an owned token has reached 0; nothing when it has not (R137; log entry 6). -/
def execWindowExpiry (s : State) : Host.Outcome State Fault Refusal :=
  .next (if s.token ≠ .free ∧ s.window = some 0 then s.windowExpires else s)

/-- A port that is answering a read gives the next of its responses (R61, R62, R146; log entry 5). -/
def State.answerNext (s : State) (p : PortId) : State :=
  match (s.port p).cycle with
  | some ⟨kind, addr, len, .answering left⟩ => s.giveBeats p kind addr len left
  | _ => s

/-- Every port that is answering a read gives its next response. -/
def State.answerAll (s : State) : State := four.foldl State.answerNext s

/-- One part clock at the divisor: the count rises, and the clock that would bring it to N gives a tick (R119). -/
def State.divisorClock (s : State) : State :=
  if s.tickSource = 7 then s
  else if s.divisor + 1 < clocksPerTick s.tickSource then { s with divisor := s.divisor + 1 }
  else s.divisorTick.settle

/-- One part clock with no command taken: the reads being answered go on by a beat, and the divisor counts; in reset
neither does (log entries 5 and 9). -/
def State.partClock (s : State) : State := if s.rst then s else s.answerAll.divisorClock

end Sys2Proof.Machine
end

