-- ==== Sys2Proof/Machine/MemoryPort.lean ====
section
/-! DEFINITION. The meanings of the rows of the memory bus, the engine and the storage: GRANT, MEMORY_BEAT_ANSWER,
JOB_START, STORAGE_FAULT. -/

namespace Sys2Proof.Machine

/-! ### Answers of the external memory -/

/-- A beat has a memory error: XERR, or on a read an enabled byte that fails its parity (R163). -/
def beatError (b : BusBurst) (xerr : Bool) (data : Word) (par : Lanes) : Bool :=
  let en := ((b.burst.beats[b.answered]?).getD ⟨0, 0⟩).en
  xerr || (!b.burst.write && !beatGood en data par)

/-- The word a port drives for a read beat without error: in each enabled lane the staged byte while the staged
bytes stand, else memory's byte; 00h in a lane not enabled (R63, R64, R146, R169). -/
def ReadBeat.merge (r : ReadBeat) (stagedStand : Bool) (data : Word) : Word :=
  laneWord fun n =>
    if r.en.getLsbD n then
      if r.staged.getLsbD n && stagedStand then laneByte r.data n else laneByte data n
    else 0

/-- The answer to a read beat (R63, R64, R65, R169). -/
def ReadBeat.answer (r : ReadBeat) (bad stagedStand : Bool) (data : Word) : Answer :=
  if bad || r.failed then .readError else .word (r.merge stagedStand data)

/-- The group is still OPEN: its context is, and has started no other group since (R169; log entry 10). -/
def State.groupOpen (s : State) (g : GroupRef) : Bool :=
  (s.ctx g.ctx).state = .opened && (s.ctx g.ctx).number == g.number

/-- The first bad beat of a port's read is reported: to the read's group as MEMERR while that group is OPEN, otherwise
as MEMERR on the issuing port (R42, R64, R169). -/
def State.reportReadError (s : State) (p : PortId) (group : Option GroupRef) (addr : Addr) : State :=
  match group with
  | some g => if s.groupOpen g then s.abort g.ctx .memerr (some addr) else s.setFlag p .memerr
  | none => s.setFlag p .memerr

/-- A beat of a port's read is answered to its master (R169). -/
def State.readBeatAnswered (s : State) (p : PortId) (b : BusBurst) (bad : Bool) (data : Word) : State :=
  match (s.port p).cycle with
  | some ⟨_, addr, _, .reading beats group⟩ =>
    let r := (beats[b.answered]?).getD ⟨0, 0, 0, false⟩
    let s1 := s.respond p [r.answer bad (!b.bad && !bad) data]
    if bad && !b.bad then s1.reportReadError p group (beatAddr addr b.answered) else s1
  | _ => s

/-- What the owner of the burst does with one beat's answer: a port's read is answered beat by beat, every other
burst waits for its completion (R163, R169, R170). -/
def State.beatToOwner (s : State) (b : BusBurst) (bad : Bool) (data : Word) : State :=
  match b.owner with
  | .port p => if b.orphan || b.burst.write then s else s.readBeatAnswered p b bad data
  | .engine => s

/-! ### Completion of a burst -/

/-- A port's write has reached memory and is in flight no more; an ending LOCK-WRITE never was (R34). -/
def State.landed (s : State) (p : PortId) (b : BusBurst) : State :=
  if b.burst.write && !b.closing then s.setInFlight (s.inFlight.erase (p, lineOf b.burst.addr)) else s

/-- A port's write is answered: DONE, or ERROR with MEMERR when a beat was bad (R170). -/
def State.writeAnswered (s : State) (p : PortId) (bad : Bool) : State :=
  if bad then (s.setFlag p .memerr).respond p [.error] else s.respond p [.done]

/-- The completion of a port's burst: its cycle ends (R169, R170), unless a port reset has dropped it (R157). -/
def State.portBurstDone (s : State) (p : PortId) (b : BusBurst) : State :=
  let s1 := s.landed p b
  if b.orphan then s1
  else (if b.burst.write then s1.writeAnswered p b.bad else s1).setCycle p none

/-- The completion of an Engine burst: the line's turn ends and the next begins (R78, R79), or the record job finishes
(R102, R103). -/
def State.engineBurstDone (s : State) (bad : Bool) : State :=
  match s.jobs with
  | ⟨c, .commit remaining failed pos, .writing⟩ :: rest =>
    s.engineRun (⟨c, .commit (remaining - 1) (failed + if bad then 1 else 0) (pos + 1), .waiting⟩ :: rest)
  | ⟨c, .record _ _, .writing⟩ :: rest =>
    ((s.setJobs rest).recordFinish c bad bad).engineRun rest
  | _ => s

/-- A burst completes: the bus is FREE and the burst's owner finishes its cycle, line or record (R162). -/
def State.burstDone (s : State) (b : BusBurst) : State :=
  let s1 := s.setBus none
  match b.owner with
  | .port p => s1.portBurstDone p b
  | .engine => s1.engineBurstDone b.bad

/-- The external memory answers one beat of the burst on the bus; with the bus FREE there is none (R162, R163). -/
def State.takeBeat (s : State) (xerr : Bool) (data : Word) (par : Lanes) : State :=
  match s.bus with
  | none => s
  | some b =>
    let bad := beatError b xerr data par
    let s1 := s.beatToOwner b bad data
    let b1 := { b with answered := b.answered + 1, bad := b.bad || bad }
    if b1.answered < b.burst.beats.length then s1.setBus (some b1) else s1.burstDone b1

/-- MEMORY_BEAT_ANSWER (R163). -/
def execMemoryBeatAnswer (xerr : Bool) (data : Word) (par : Lanes) (s : State) :
    Host.Outcome State Fault Refusal :=
  .next (s.takeBeat xerr data par).settle

/-! ### Grant and job start -/

/-- GRANT: the grant decision, where a request stands that may be granted and the bus is FREE (R165; log entry 6). -/
def execGrant (s : State) : Host.Outcome State Fault Refusal := .next s.arbitrate

/-- JOB_START: the head of the job queue starts when it has not started yet (R73; log entry 6). -/
def execJobStart (s : State) : Host.Outcome State Fault Refusal := .next s.settle

/-! ### Storage fault -/

/-- Bits of a stored byte or its parity bit change (R54). -/
def StoredByte.upset (b : StoredByte) (flip : Byte) (flipPar : Bool) : StoredByte :=
  ⟨b.val ^^^ flip, b.par ^^ flipPar⟩

/-- STORAGE_FAULT: a data byte or stored parity bit of a slot that is not FREE changes; a byte whose mask bit is clear
is used by nothing (R54; log entry 19). -/
def execStorageFault (slot : SlotId) (offset : Fin 32) (flip : Byte) (flipPar : Bool) (s : State) :
    Host.Outcome State Fault Refusal :=
  .next (match s.slots[slot] with
    | some b => s.setSlot slot (some { b with
        bytes := b.bytes.set offset ((b.bytes[offset]).map fun x => x.upset flip flipPar) })
    | none => s)

end Sys2Proof.Machine
end

