-- ==== Sys2Proof/Machine/Cycles.lean ====
section
/-! DEFINITION. The meanings of the memory cycles: MEM_READ, MEM_WRITE, LOCK_READ and LOCK_WRITE. -/

namespace Sys2Proof.Machine

/-- A well-formed MEM-READ, its pair already broken (R148, R4). -/
def State.takeRead (s : State) (p : PortId) (addr : Addr) (ens : List Lanes) : State :=
  let c := s.serving p
  let (s1, expired) := s.countCycle p
  let s2 := if (s.ctx c).state = .opened then s1.groupRead c p addr ens else s1.ungroupedRead p addr ens
  s2.expire c expired

/-- A MEM-WRITE of good parity: group write, ungrouped write, or discarded (R4, R35). -/
def State.performWrite (s : State) (p : PortId) (addr : Addr) (beats : List WriteBeat) : State :=
  let c := s.serving p
  match (s.ctx c).state with
  | .opened => s.groupWrite c p addr beats
  | .idle | .committing => s.ungroupedWrite p 2 addr beats
  | .aborting | .doomed => s.respond p [.done]

/-- A well-formed MEM-WRITE, its pair already broken (R148, R149). -/
def State.takeWrite (s : State) (p : PortId) (addr : Addr) (beats : List WriteBeat) : State :=
  let c := s.serving p
  let (s1, expired) := s.countCycle p
  let s2 := if writeGood beats then s1.performWrite p addr beats else s1.refuseParity p addr
  s2.expire c expired

/-- A well-formed LOCK-READ, any pair of its port already broken: it aborts its own OPEN group with LOCKED and goes
on as a locked cycle (R148, R150). -/
def State.takeLockRead (s : State) (p : PortId) (addr : Addr) (en : Lanes) : State :=
  let c := s.serving p
  let (s1, expired) := s.countCycle p
  ((s1.abort c .locked (some addr)).lockedRead p addr en).expire c expired

/-- A LOCK-WRITE to the line of its port's pair. Of bad parity it is refused and still ends the pair (R149, R151). -/
def State.takeEndingWrite (s : State) (p : PortId) (addr : Addr) (beat : WriteBeat) : State :=
  let c := s.serving p
  let (s1, expired) := s.countCycle p
  let s2 := if writeGood [beat] then s1.endingWrite p addr beat else (s1.setPair p none).refuseParity p addr
  s2.expire c expired

/-- A stray LOCK-WRITE, any pair of its port already broken: an ungrouped write in every context state (R151). -/
def State.takeStrayWrite (s : State) (p : PortId) (addr : Addr) (beat : WriteBeat) : State :=
  let c := s.serving p
  let (s1, expired) := s.countCycle p
  let s2 := if writeGood [beat] then s1.ungroupedWrite p 4 addr [beat] else s1.refuseParity p addr
  s2.expire c expired

/-! ### The cycles as the port takes them -/

/-- A MEM-READ is taken: its pair broken, and performed or, its burst not legal, refused as malformed (R147, R148). -/
def State.readCycle (s : State) (p : PortId) (addr : Addr) (ens : List Lanes) : State :=
  if legalBurst addr ens.length then (s.breakPair p).takeRead p addr ens
  else (s.breakPair p).refuseMalformed p 1 addr ens.length

/-- A MEM-WRITE is taken, all its beats received (R147, R148). -/
def State.writeCycle (s : State) (p : PortId) (addr : Addr) (beats : List WriteBeat) : State :=
  if legalBurst addr beats.length then (s.breakPair p).takeWrite p addr beats
  else (s.breakPair p).refuseMalformed p 2 addr beats.length

/-- A LOCK-READ is taken (R147, R150). -/
def State.lockReadCycle (s : State) (p : PortId) (addr : Addr) (en : Lanes) : State :=
  if legalBurst addr 1 then (s.breakPair p).takeLockRead p addr en
  else (s.breakPair p).refuseMalformed p 3 addr 1

/-- A LOCK-WRITE is taken: it ends a pair on its own line, or breaks any other pair and is a stray (R147, R151). -/
def State.lockWriteCycle (s : State) (p : PortId) (addr : Addr) (beat : WriteBeat) : State :=
  if legalBurst addr 1 then
    if (s.port p).pair = some (lineOf addr) then s.takeEndingWrite p addr beat
    else (s.breakPair p).takeStrayWrite p addr beat
  else (s.breakPair p).refuseMalformed p 4 addr 1

/-! ### The meanings -/

/-- MEM_READ (R148). -/
def execMemRead (p : PortId) (addr : Addr) (ens : List Lanes) (s : State) : Host.Outcome State Fault Refusal :=
  .next (s.cycle p fun t => t.readCycle p addr ens)

/-- MEM_WRITE: beats of a MEM-WRITE arrive, and with the last of them it is taken (R145, R148). -/
def execMemWrite (p : PortId) (addr : Addr) (data : WriteData) (s : State) : Host.Outcome State Fault Refusal :=
  .next (s.arrive p ⟨2, addr, data.len, data.beats⟩ fun r t => t.writeCycle p r.addr r.beats)

/-- LOCK_READ (R150). -/
def execLockRead (p : PortId) (addr : Addr) (en : Lanes) (s : State) : Host.Outcome State Fault Refusal :=
  .next (s.cycle p fun t => t.lockReadCycle p addr en)

/-- LOCK_WRITE, with its one beat (R151). -/
def execLockWrite (p : PortId) (addr : Addr) (beat : WriteBeat) (s : State) : Host.Outcome State Fault Refusal :=
  .next (s.cycle p fun t => t.lockWriteCycle p addr beat)

end Sys2Proof.Machine
end

