-- ==== Sys2Proof/Machine/Pins.lean ====
section
/-! DEFINITION. A cycle as a master port's pins show it: decoded and taken; the meaning of MALFORMED_CYCLE. -/

namespace Sys2Proof.Machine

/-- A malformed cycle is taken: any pair broken, and refused (R147, R152). -/
def State.malformedTaken (s : State) (p : PortId) (r : RawCycle) : State :=
  (s.breakPair p).refuseMalformed p r.kind r.addr (beatsOf r.len)

/-- The cycle that a command is, as its port takes it; a command that is no cycle takes nothing (R143, R148). -/
def State.takeCycle (s : State) : Instr → State
  | .markOpen p arg => s.openCycle p arg
  | .markClose p arg => s.closeCycle p arg
  | .markDrop p arg data par => s.dropCycle p arg data par
  | .markRecAddr p arg data par => s.recAddrCycle p arg data par
  | .markStatus p arg => s.statusCycle p arg
  | .markGetCfg p item => s.getCfgCycle p item
  | .setCfgRegion p k data par => s.setCfgCycle p (BitVec.ofNat 16 k.val) data par fun t => t.applyRegion k data
  | .setCfgPairing p data par => s.setCfgCycle p 0x08 data par fun t => t.applyPairing data
  | .setCfgLifetime p c data par =>
    s.setCfgCycle p (BitVec.ofNat 16 (0x09 + c.val)) data par fun t => t.applyLifetime c data
  | .setCfgSlotCaps p data par => s.setCfgCycle p 0x0D data par fun t => t.applyCaps data
  | .setCfgEscalation p data par => s.setCfgCycle p 0x0E data par fun t => t.applyEscalation data
  | .setCfgTickSource p data par => s.setCfgCycle p 0x0F data par fun t => t.applyTickSource data
  | .setCfgFaultMasks p data par => s.setCfgCycle p 0x10 data par fun t => t.applyMasks data
  | .setCfgUndefinedItem p item data par => s.setCfgCycle p item data par fun t => t.applyItem item.toNat data
  | .memRead p addr ens => s.readCycle p addr ens
  | .memWrite p addr data => s.writeCycle p addr data.beats
  | .lockRead p addr en => s.lockReadCycle p addr en
  | .lockWrite p addr beat => s.lockWriteCycle p addr beat
  | .malformedCycle p raw => s.malformedTaken p raw
  | .portReset _ | .partReset _ | .qreqAsserted | .qreqNegated | .tick _ | .lifetimeExpiry _ | .windowExpiry
  | .storageFault _ _ _ _ | .grant | .memoryBeatAnswer _ _ _ | .jobStart | .portResetRelease _ | .partResetRelease
  | .tickPinFall => s

/-- A raw cycle whose beats have all been shown is decoded and taken (R147, R186). -/
def State.takeRaw (s : State) (p : PortId) (r : RawCycle) : State :=
  match decodeCycle p r with
  | some i => s.takeCycle i
  | none => s

/-- MALFORMED_CYCLE (R147): a write kind takes its data beats first, every other kind is taken at its address (R145).
Operands that spell a cycle that is not malformed are that cycle, and kind 0 begins none (R144, R186; log entry 15). -/
def execMalformedCycle (p : PortId) (raw : RawCycle) (s : State) : Host.Outcome State Fault Refusal :=
  .next (if raw.kind = 0 then s
    else if writeKind raw.kind then s.arrive p raw fun r t => t.takeRaw p r
    else s.cycle p fun t => t.takeRaw p raw)

end Sys2Proof.Machine
end

