-- ==== Sys2Proof/Machine/Dispatch.lean ====
section
/-! DEFINITION. One arm per command. -/

namespace Sys2Proof.Machine

def exec (i : Instr) (s : State) : Host.Outcome State Fault Refusal :=
  match i with
  | .markOpen p arg => Sys2Proof.Machine.execMarkOpen p arg s
  | .markClose p arg => Sys2Proof.Machine.execMarkClose p arg s
  | .markDrop p arg data par => Sys2Proof.Machine.execMarkDrop p arg data par s
  | .markRecAddr p arg data par => Sys2Proof.Machine.execMarkRecAddr p arg data par s
  | .markStatus p arg => Sys2Proof.Machine.execMarkStatus p arg s
  | .markGetCfg p item => Sys2Proof.Machine.execMarkGetCfg p item s
  | .setCfgRegion p k data par => Sys2Proof.Machine.execSetCfgRegion p k data par s
  | .setCfgPairing p data par => Sys2Proof.Machine.execSetCfgPairing p data par s
  | .setCfgLifetime p c data par => Sys2Proof.Machine.execSetCfgLifetime p c data par s
  | .setCfgSlotCaps p data par => Sys2Proof.Machine.execSetCfgSlotCaps p data par s
  | .setCfgEscalation p data par => Sys2Proof.Machine.execSetCfgEscalation p data par s
  | .setCfgTickSource p data par => Sys2Proof.Machine.execSetCfgTickSource p data par s
  | .setCfgFaultMasks p data par => Sys2Proof.Machine.execSetCfgFaultMasks p data par s
  | .setCfgUndefinedItem p item data par => Sys2Proof.Machine.execSetCfgUndefinedItem p item data par s
  | .memRead p addr ens => Sys2Proof.Machine.execMemRead p addr ens s
  | .memWrite p addr data => Sys2Proof.Machine.execMemWrite p addr data s
  | .lockRead p addr en => Sys2Proof.Machine.execLockRead p addr en s
  | .lockWrite p addr beat => Sys2Proof.Machine.execLockWrite p addr beat s
  | .malformedCycle p raw => Sys2Proof.Machine.execMalformedCycle p raw s
  | .portReset p => Sys2Proof.Machine.execPortReset p s
  | .partReset straps => Sys2Proof.Machine.execPartReset straps s
  | .qreqAsserted => Sys2Proof.Machine.execQreqAsserted s
  | .qreqNegated => Sys2Proof.Machine.execQreqNegated s
  | .tick cause => Sys2Proof.Machine.execTick cause s
  | .lifetimeExpiry c => Sys2Proof.Machine.execLifetimeExpiry c s
  | .windowExpiry => Sys2Proof.Machine.execWindowExpiry s
  | .storageFault slot offset flip flipPar => Sys2Proof.Machine.execStorageFault slot offset flip flipPar s
  | .grant => Sys2Proof.Machine.execGrant s
  | .memoryBeatAnswer xerr data par => Sys2Proof.Machine.execMemoryBeatAnswer xerr data par s
  | .jobStart => Sys2Proof.Machine.execJobStart s
  | .portResetRelease p => Sys2Proof.Machine.execPortResetRelease p s
  | .partResetRelease => Sys2Proof.Machine.execPartResetRelease s
  | .tickPinFall => Sys2Proof.Machine.execTickPinFall s

end Sys2Proof.Machine
end

