-- ==== Sys2Proof/Machine/Step.lean ====
section
/-! DEFINITION. One step: the command at the front of the queue, or a part clock when nothing waits. -/

namespace Sys2Proof.Machine

/-- Take the command at the front of the queue and run exec on it with the queue's rest; with an empty queue one
part clock passes (log entries 5 and 9). -/
def step (s : State) : Host.Outcome State Fault Refusal :=
  match s.pending with
  | [] => .next s.partClock
  | c :: rest => exec c { s with pending := rest }

/-- `s` with the command that a word spells put at the front of its queue; unchanged where the word spells none. No
row of the table has bits, so no word spells one. A program comes to run by the commands its senders put in the
queue (log entry 22). -/
def State.withFetchWord (s : State) (nbits w : Nat) : State :=
  match decodeTableWord nbits w with
  | some c => { s with pending := c :: s.pending }
  | none => s

end Sys2Proof.Machine
end

