-- ==== Sys2Proof/Safety.lean ====
section
/-! DEFINITION. What the bridge keeps true from step to step, said of one state; and the words the statements use for
a port that is free to take a cycle and for the answers it was given. -/

namespace Sys2Proof.Machine

/-! ### Words of the statements -/

/-- The port can take a cycle and holds no pair, so the cycle breaks none (R144, R152). -/
def State.free (s : State) (p : PortId) : Bool := s.takesCycle p && (s.port p).pair.isNone

/-- The answers of a port's latest cycle put in place of those before (R146; log entry 14). -/
def State.answered (s : State) (p : PortId) (as : List Answer) : State :=
  s.setPort p { s.port p with answers := as }

/-- A flag set on a port, and the answers of its latest cycle. -/
def State.flagged (s : State) (p : PortId) (f : Flag) (as : List Answer) : State :=
  s.setPort p { s.port p with flags := (s.port p).flags ||| f.word, answers := as }

/-- A SETCFG with this data word passes the checks that every item shares (R174): a free port that is the
configuration port, good parity, every context IDLE and the job queue empty. -/
def State.acceptsCfg (s : State) (p : PortId) (data : Word) (par : Lanes) : Bool :=
  s.free p && beatGood 0xF data par && p == s.cfgPort && four.all (fun c => (s.ctx c).state == .idle) &&
    s.jobs.isEmpty

/-- The state after the counting of a memory cycle of a port (R5, R125). -/
def State.counted (s : State) (p : PortId) : State := (s.countCycle p).1

/-- The counting of a memory cycle of a port is an expiry (R126). -/
def State.countExpires (s : State) (p : PortId) : Bool := (s.countCycle p).2

/-! ### Nothing is left to do at once -/

/-- No grant is open while the bus is FREE, and the head of the job queue has started: what each step leaves (R73,
R165). -/
def State.settled (s : State) : Bool :=
  (s.bus.isSome || s.winner.isNone) && s.jobs.head?.all fun j => j.phase != .waiting

/-! ### Contexts, jobs and ages -/

/-- The job is a commit job (R72). -/
def Job.isCommit (j : Job) : Bool :=
  match j.work with
  | .commit _ _ _ => true
  | .record _ _ => false

/-- At most one job a context; a commit job exactly for COMMITTING, a record job exactly for ABORTING (R72). -/
def State.jobsMatch (s : State) : Bool :=
  decide (s.jobs.map Job.ctx).Nodup && four.all fun c =>
    ((s.ctx c).state == .committing) == (s.jobs.any fun j => j.ctx == c && j.isCommit) &&
    ((s.ctx c).state == .aborting) == (s.jobs.any fun j => j.ctx == c && !j.isCommit)

/-- Only the job at the head of the queue is at work; those behind it wait (R73). -/
def State.tailWaits (s : State) : Bool := s.jobs.tail.all fun j => j.phase == .waiting

/-- The fields of a context stand together (R3, R7, R8, R70): depth is the height of the stack, at most 6, and 0
exactly in IDLE; it is 1 in COMMITTING; the effective controls are those of the stack; a mark is held only on hold;
IDLE has no record address and no release flag. -/
def Context.formed (x : Context) : Bool :=
  decide (x.levels.length ≤ Config.depthLimit) && x.depth == x.levels.length &&
  (x.state == .idle) == (x.depth == 0) && (x.state != .committing || x.depth == 1) &&
  x.escape == escapeOf x.levels && x.notice == noticeOf x.levels && x.bounded == boundedOf x.levels &&
  x.levels.all (fun l => decide (l.notice ≤ 2)) &&
  (x.held.isNone || x.state == .committing || x.state == .aborting) &&
  (x.state != .idle || (x.recAddr.isNone && !x.release))

/-- Every context is formed. -/
def State.contextsFormed (s : State) : Bool := four.all fun c => (s.ctx c).formed

/-- The two 16-bit counters of every context stand within their range (R5, R123). -/
def State.countsBounded (s : State) : Bool :=
  four.all fun c => decide ((s.ctx c).lifetime ≤ Config.countLimit ∧ (s.ctx c).cycles ≤ Config.countLimit)

/-- The age list holds exactly the OPEN contexts, each once (R9). -/
def State.agesMatch (s : State) : Bool :=
  decide s.ages.Nodup && four.all fun c => s.ages.contains c == ((s.ctx c).state == .opened)

/-! ### Sets, slots and the token -/

/-- A read set holds at most 24 lines, none twice, and only an OPEN context has one (R29). -/
def State.readsBounded (s : State) : Bool :=
  four.all fun c => decide ((s.reads c).length ≤ Config.readSetLimit) && decide (s.reads c).Nodup &&
    ((s.reads c).isEmpty || (s.ctx c).state == .opened)

/-- Queue, token, timer and counters stand together (R130, R135, R136): no context is queued twice or while it owns
the token; a HELD token's owner is OPEN; a FREE token leaves nobody queued and the timer unlimited; with escalation
off nothing is queued or owned; a running timer holds 1 to 254 ticks; no counter passes 15. -/
def State.escalationFormed (s : State) : Bool :=
  decide s.prioQueue.Nodup && four.all (fun c =>
    (!s.ownsToken c || !s.prioQueue.contains c) && (s.token != .held c || (s.ctx c).state == .opened) &&
    decide (s.counters.get c ≤ Config.counterLimit)) &&
  (s.token != .free || (s.prioQueue.isEmpty && s.window.isNone)) &&
  (s.escalationOn || (s.prioQueue.isEmpty && s.token == .free)) &&
  s.window.all fun n => decide (1 ≤ n ∧ n ≤ 254)

/-- A slot that is not FREE stands on its owner's list and on no other, holds a written byte, and is LOCKED exactly
while its owner is COMMITTING; a FREE slot stands on no list (R53, R55). -/
def State.slotListed (s : State) (i : SlotId) : Bool :=
  match s.slots[i] with
  | none => four.all fun c => !(s.order c).contains i
  | some b => b.bytes.toList.any Option.isSome && b.locked == ((s.ctx b.owner).state == .committing) &&
      four.all fun c => (s.order c).contains i == (c == b.owner)

/-- The lists name each slot once, stay within the caps and belong to OPEN and COMMITTING contexts; every slot stands
where R53 puts it; no line is in two slots (R53, R55, R56). -/
def State.storeFormed (s : State) : Bool :=
  four.all (fun c => decide (s.order c).Nodup && decide ((s.order c).length ≤ s.caps.get c) &&
    ((s.order c).isEmpty || (s.ctx c).state == .opened || (s.ctx c).state == .committing)) &&
  (List.finRange 48).all s.slotListed && decide (four.flatMap s.writes).Nodup

/-- A line that an OPEN group has staged is in no other OPEN group's footprint (R37). -/
def State.writesAlone (s : State) : Bool :=
  four.all fun c => four.all fun d => c == d || (s.ctx c).state != .opened || (s.ctx d).state != .opened ||
    (s.writes c).all fun l => !s.inFootprint d l

/-! ### Quiesce and ports -/

/-- No group is OPEN outside RUNNING, and a QUIESCED bridge is drained (R12, R183). -/
def State.quiesceKept (s : State) : Bool :=
  (s.bridge == .running || four.all fun c => (s.ctx c).state != .opened) && (s.bridge != .quiesced || s.drained)

/-- A held mark names a port that the context serves and whose cycle in progress is that CLOSE (R155). -/
def State.heldMatch (s : State) : Bool :=
  four.all fun c => (s.ctx c).held.all fun p => s.serving p == c && (s.port p).cycle == some .heldClose

/-- No two ports hold pairs on one line (R33). -/
def State.pairsApart (s : State) : Bool :=
  four.all fun p => four.all fun q => p == q || (s.port p).pair.isNone || (s.port p).pair != (s.port q).pair

/-- The cycle is a read or a write at the Memory Port (R144). -/
def Cycle.atMemory (y : Cycle) : Bool :=
  match y.phase with
  | .reading _ _ | .writing _ => true
  | .arriving _ | .answering _ | .held => false

/-- A request standing and a burst with a master to answer belong to a read or write in progress of their port, and
never both to one port (R144, R164). -/
def State.requestsOwned (s : State) : Bool :=
  four.all (fun p => (s.reqs.get p).isNone || (s.port p).cycle.any Cycle.atMemory) &&
  s.bus.all fun b => match b.owner with
    | .port p => b.orphan || ((s.port p).cycle.any Cycle.atMemory && (s.reqs.get p).isNone)
    | .engine => true

end Sys2Proof.Machine
end

