-- ==== Sys2Proof/Certificates/Slice0/Obligations.lean ====
section
/-! DEFINITION. The statements for the provers. A statement gives the next state of a command as a term, so that one
equation says that the command completes, what it changes and that it changes nothing else. Words used, all of
Sys2Proof/Safety.lean but the last: `s.free p` the port can take a cycle and holds no pair; `s.settled` nothing is left
to grant or start; `s.answered p as` the port's latest cycle got these answers; `s.flagged p f as` the same with a flag
set; `s.acceptsCfg p data par` a SETCFG from the port passes the checks that every item shares; `s.counted p` and
`s.countExpires p` a memory cycle of the port counted, and whether that count is an expiry; `t.settle` the start of a
waiting job and the grant decision that follow a claim in its own step; `t.answerBeats p k a as` a read of kind `k` at
`a` answered with these responses, the first now and each other at a later part clock (log entry 5); `i.pins` the port
and the pins of a command that is a cycle. -/

section
open Sys2Proof Sys2Proof.Machine

/-! ### The step and the resets -/

/-- A step takes the command at the front of the queue. -/
def Obligations.StepRunsTheFrontCommand : Prop :=
  ∀ (s : State) (i : Instr) (rest : List Instr), s.pending = i :: rest →
    step s = exec i { s with pending := rest }

/-- With no command waiting one part clock passes (the model's choice, log entries 5 and 9): a port that is answering a
read gives its next response, its cycle over with the last, and the divisor count rises by 1, the clock that would bring
it to the source's N being a tick; with source 7 the divisor stands, and in reset nothing happens. -/
def Obligations.EmptyQueueStepIsOneClock : Prop :=
  ∀ s t : State, s.pending = [] → t = { s with ports := t.ports } →
    (∀ p, ((∀ y left, (s.port p).cycle = some y → y.phase ≠ .answering left) → t.port p = s.port p) ∧
      (∀ k a n, (s.port p).cycle = some ⟨k, a, n, .answering []⟩ →
        t.port p = { s.port p with cycle := none }) ∧
      (∀ k a n x rest, (s.port p).cycle = some ⟨k, a, n, .answering (x :: rest)⟩ → t.port p =
        { s.port p with
          cycle := if rest = [] then none else some ⟨k, a, n, .answering rest⟩
          answers := (s.port p).answers ++ [x] })) →
    (s.rst = true → step s = .next s) ∧
    (s.rst = false → s.tickSource = 7 → step s = .next t) ∧
    (s.rst = false → s.tickSource ≠ 7 → s.divisor + 1 < 16 * 4 ^ s.tickSource.toNat →
      step s = .next { t with divisor := s.divisor + 1 }) ∧
    (s.rst = false → s.tickSource ≠ 7 → 16 * 4 ^ s.tickSource.toNat ≤ s.divisor + 1 →
      step s = exec (.tick .divisor) t)

/-- Part reset: every block at its part-reset value and the straps sampled. That it keeps the levels of MnRST# and QREQ#
is the model's choice (log entry 3, DEDUCED), and so is that PART_RESET while RST# is asserted already sets every block
anew and samples the straps again (log entry 21, DEDUCED); a context's group number is the model's own (log entry 10).
-/
def Obligations.PartResetSetsEveryBlock : Prop :=
  ∀ (st : Straps) (s : State), ∃ t : State, exec (.partReset st) s = .next t ∧
    (∀ c, t.ctx c =
      { state := .idle, depth := 0, levels := [], escape := false, notice := 0, bounded := false
        outerArg := 0, recAddr := none, lifetime := 0, cycles := 0, lastCode := none, release := false
        held := none, number := 0 }) ∧
    (∀ p, t.port p =
      { cycle := none, pair := none, pendRec := none, flags := 0, resetPin := (s.port p).resetPin
        answers := [] }) ∧
    (∀ c, t.reads c = [] ∧ t.order c = [] ∧ t.counters.get c = 0 ∧ t.caps.get c = 24 ∧
      t.lifetimes.get c = ⟨0, .time⟩) ∧
    (∀ i : SlotId, t.slots[i] = none) ∧ (∀ p, t.reqs.get p = none) ∧
    t.ages = [] ∧ t.inFlight = [] ∧ t.jobs = [] ∧ t.prioQueue = [] ∧ t.token = .free ∧ t.window = none ∧
    t.threshold = 4 ∧ t.windowLen = 64 ∧ t.tickSource = 3 ∧ t.divisor = 0 ∧ t.tickLevel = true ∧
    (st.trkall = true → t.regions[(0 : Fin 8)] = some ⟨0, 28, .tracked⟩ ∧
      ∀ k : Fin 8, k ≠ 0 → t.regions[k] = none) ∧
    (st.trkall = false → ∀ k : Fin 8, t.regions[k] = none) ∧
    (∀ l, t.kindOf l = if st.trkall then .tracked else .pass) ∧ t.bus = none ∧ t.pointer = .engine ∧
    t.cfgPort = st.cfgp ∧ t.joinA = st.jna ∧ t.joinB = st.jnb ∧ t.masks = 0x08 ∧ t.bridge = .running ∧
    t.qreq = s.qreq ∧ t.rst = true

/-- RST# negated: the ports go on, and a QREQ# found asserted takes the empty bridge to QUIESCED at once; that a
negation of a negated line changes nothing is the model's choice (log entry 17, DEDUCED). MnRST# negated: the port takes
cycles again, and nothing else changes. -/
def Obligations.ResetReleases : Prop :=
  (∀ s : State,
    (s.rst = false → exec .partResetRelease s = .next s) ∧
    (s.rst = true → s.settled → s.qreq = false → exec .partResetRelease s = .next { s with rst := false }) ∧
    (s.rst = true → s.settled → s.qreq = true → s.bridge = .running → s.jobs = [] →
      (∀ c, (s.ctx c).state = .idle) →
      exec .partResetRelease s = .next { s with rst := false, bridge := .quiesced })) ∧
  (∀ (s : State) (p : PortId), exec (.portResetRelease p) s = .next (s.setPort p
      { s.port p with resetPin := false }) ∧
    (s.rst = false → (s.port p).cycle = none → (s.setPort p { s.port p with resetPin := false }).takesCycle p))

/-- The port's own share of a port reset: the cycle is dropped, pair and pending record address become none, the request
is withdrawn, a burst granted to the port runs on with no master to answer, and the port stays in reset. A port already
in reset takes no second reset (log entry 17). `resetPort` is this share without the port's flags, which are cleared
last, and without what follows in the step. -/
def Obligations.PortResetClearsThePort : Prop :=
  (∀ (s : State) (p : PortId),
    ((s.port p).resetPin = true → exec (.portReset p) s = .next s) ∧
    ((s.port p).resetPin = false → ∃ t, exec (.portReset p) s = .next t ∧ (t.port p).cycle = none ∧
      (t.port p).pair = none ∧ (t.port p).pendRec = none ∧ (t.port p).resetPin = true ∧ t.reqs.get p = none ∧
      (∀ b, s.bus = some b → t.bus = some (if b.owner = .port p then { b with orphan := true } else b)) ∧
      (∀ r, s.reqs.get p = some r → t.inFlight =
        if r.burst.write = true ∧ r.closing = false then s.inFlight.erase (p, lineOf r.burst.addr)
        else s.inFlight) ∧
      (∀ q, q ≠ p → (t.port q).pair = (s.port q).pair ∧ (t.port q).pendRec = (s.port q).pendRec ∧
        (t.port q).resetPin = (s.port q).resetPin))) ∧
  ∀ (s : State) (p : PortId), s.resetPort p =
    { s with
      ports := s.ports.set p
        { cycle := none, pair := none, pendRec := none, flags := (s.port p).flags, resetPin := true, answers := [] }
      reqs := s.reqs.set p none
      bus := s.bus.map fun b => if b.owner = .port p then { b with orphan := true } else b
      inFlight := match s.reqs.get p with
        | some r => if r.burst.write = true ∧ r.closing = false then s.inFlight.erase (p, lineOf r.burst.addr)
          else s.inFlight
        | none => s.inFlight }

/-- What a port reset does to the serving context, state by state. In a SEPARATE pair an OPEN group is aborted with the
release flag set, DOOMED is cleared, and a held CLOSE is discarded; in a JOINED pair there is no release flag and no way
past DOOMED. Either way the context leaves escalation and the port's flags are cleared last. To leave escalation is:
counter 0, out of the queue, and a token it owns freed and granted to the queue's head. Two points are the model's
choices: an IDLE context too leaves escalation (log entry 20, DEDUCED), and the flags are cleared before a job starts in
the same step (log entry 12, DEDUCED). -/
def Obligations.PortResetByContextState : Prop :=
  (∀ (s : State) (p : PortId) (c : CtxId) (x : Context), (s.port p).resetPin = false → s.joined p = false →
    s.serving p = c → s.ctx c = x →
    (x.state = .idle → exec (.portReset p) s = .next
      (((s.resetPort p).leaveEscalation c).clearFlags p 0xFF).settle) ∧
    (x.state = .opened → exec (.portReset p) s = .next (((((s.resetPort p).setCtx c
      { x with release := true }).abort c .portReset).leaveEscalation c).clearFlags p 0xFF).settle) ∧
    (x.state = .committing → exec (.portReset p) s = .next ((((s.resetPort p).setCtx c
      { x with held := if x.held = some p then none else x.held }).leaveEscalation c).clearFlags p 0xFF).settle) ∧
    (x.state = .aborting → exec (.portReset p) s = .next ((((s.resetPort p).setCtx c
      { x with held := (if x.held = some p then none else x.held), release := true }).leaveEscalation c).clearFlags
        p 0xFF).settle) ∧
    (x.state = .doomed → exec (.portReset p) s = .next ((((s.resetPort p).setCtx c
      { x with
        state := .idle, depth := 0, levels := [], escape := false, notice := 0, bounded := false
        recAddr := none, release := false, held := none }).leaveEscalation c).clearFlags p 0xFF).settle)) ∧
  (∀ (s : State) (p : PortId) (c : CtxId) (x : Context), (s.port p).resetPin = false → s.joined p = true →
    s.serving p = c → s.ctx c = x →
    (x.state = .opened → exec (.portReset p) s = .next ((((s.resetPort p).abort c .portReset).leaveEscalation
      c).clearFlags p 0xFF).settle) ∧
    (x.state = .committing ∨ x.state = .aborting → exec (.portReset p) s = .next ((((s.resetPort p).setCtx c
      { x with held := if x.held = some p then none else x.held }).leaveEscalation c).clearFlags p 0xFF).settle) ∧
    (x.state = .doomed ∨ x.state = .idle → exec (.portReset p) s = .next
      (((s.resetPort p).leaveEscalation c).clearFlags p 0xFF).settle)) ∧
  (∀ (s t : State) (c : CtxId),
    t = { s with counters := s.counters.set c 0, prioQueue := s.prioQueue.filter (· ≠ c) } →
    (s.token ≠ .held c → s.token ≠ .reserved c → s.leaveEscalation c = t) ∧
    (s.token = .held c ∨ s.token = .reserved c →
      (t.prioQueue = [] → s.leaveEscalation c = { t with token := .free, window := none }) ∧
      (∀ h r, s.escalationFormed → t.prioQueue = h :: r → s.leaveEscalation c =
        { t with
          token := .reserved h, prioQueue := r
          window := if s.windowLen = 255 then none else some s.windowLen.toNat })))

/-! ### OPEN and CLOSE -/

/-- An OPEN of legal argument taken in IDLE by a RUNNING bridge starts a group: level, controls, captured record
address, age list, lifetime 1, cycle count 0, a RESERVED token HELD if the group is bounded, and STARTED at depth 1. An
OPEN in a bounded group aborts it with BOUNDS, and one at depth 6 with DEPTH, whatever its argument; it is answered
ABORTED at once with that code, not transient, and the depth before it. (The group's number in its context is the
model's own, log entry 10.) -/
def Obligations.OpenStartsOrAbortsAGroup : Prop :=
  (∀ (s : State) (p : PortId) (arg : Arg) (c : CtxId), s.free p → s.settled → s.serving p = c →
    s.bridge = .running → (s.ctx c).state = .idle → arg.extractLsb' 2 2 ≠ 3 → arg.extractLsb' 4 12 = 0 →
    exec (.markOpen p arg) s = .next ((((s.answered p [.word 0x00000011]).setCtx c
      { s.ctx c with
        state := .opened, depth := 1
        levels := [⟨arg.getLsbD 0, arg.getLsbD 1, (arg.extractLsb' 2 2).toNat⟩]
        escape := arg.getLsbD 1, notice := (arg.extractLsb' 2 2).toNat, bounded := arg.getLsbD 0
        outerArg := arg, recAddr := (s.port p).pendRec, lifetime := 1, cycles := 0
        number := (s.ctx c).number + 1 }).setAges
          (s.ages ++ [c])).setToken
      (if s.token = .reserved c ∧ arg.getLsbD 0 = true then .held c else s.token)
      (if s.token = .reserved c ∧ arg.getLsbD 0 = true then
        (if s.windowLen = 255 then none else some s.windowLen.toNat) else s.window))) ∧
  (∀ (s : State) (p : PortId) (arg : Arg) (c : CtxId), s.free p → s.serving p = c → s.bridge = .running →
    (s.ctx c).state = .opened →
    ((s.ctx c).bounded = true → exec (.markOpen p arg) s = .next (((s.answered p []).abort c .bounds).respond p
      [.word (field 6 0 ||| field (s.ctx c).depth 4 ||| field 5 8)]).settle) ∧
    ((s.ctx c).bounded = false → (s.ctx c).depth = 6 → exec (.markOpen p arg) s =
      .next (((s.answered p []).abort c .depth).respond p [.word 0x00000666]).settle))

/-- An OPEN taken in an OPEN, unbounded group above no six levels pushes an inner level, whose bounded bit is 0 and
whose escape is 0 when BOUNDED is asked for; an illegal argument is answered SPEC. A CLOSE above depth 1 pops the top
level. The answer is ENTERED or LEFT with the new depth, and the controls are formed anew: escape when every entry has
it, the largest notice, the bounded bit of the outermost entry, which stands last. -/
def Obligations.LevelsAreEnteredAndLeft : Prop :=
  (∀ (s : State) (p : PortId) (arg : Arg) (c : CtxId), s.free p → s.settled → s.serving p = c →
    s.bridge = .running → (s.ctx c).state = .opened → (s.ctx c).bounded = false → (s.ctx c).depth ≠ 6 →
    (arg.extractLsb' 2 2 ≠ 3 → arg.extractLsb' 4 12 = 0 → ∀ ls : List Level,
      ls = ⟨false, arg.getLsbD 1 && !arg.getLsbD 0, (arg.extractLsb' 2 2).toNat⟩ :: (s.ctx c).levels →
      exec (.markOpen p arg) s = .next ((s.answered p [.word (field 2 0 ||| field ls.length 4)]).setCtx c
        { s.ctx c with
          levels := ls, depth := ls.length, escape := escapeOf ls, notice := noticeOf ls
          bounded := boundedOf ls })) ∧
    (arg.extractLsb' 2 2 = 3 ∨ arg.extractLsb' 4 12 ≠ 0 →
      exec (.markOpen p arg) s = .next (s.answered p [.word 0x00000009]))) ∧
  (∀ (s : State) (p : PortId) (c : CtxId) (l : Level) (ls : List Level), s.free p → s.settled → s.serving p = c →
    (s.ctx c).state = .opened → 1 < (s.ctx c).depth → (s.ctx c).levels = l :: ls →
    exec (.markClose p 0) s = .next ((s.answered p [.word (field 3 0 ||| field ls.length 4)]).setCtx c
      { s.ctx c with
        levels := ls, depth := ls.length, escape := escapeOf ls, notice := noticeOf ls, bounded := boundedOf ls })) ∧
  ((∀ ls : List Level, escapeOf ls = true ↔ ls ≠ [] ∧ ∀ l ∈ ls, l.escape = true) ∧
  (∀ ls : List Level, (∀ l ∈ ls, l.notice ≤ noticeOf ls) ∧ (ls ≠ [] → ∃ l ∈ ls, l.notice = noticeOf ls)) ∧
  (∀ (ls : List Level) (l : Level), boundedOf (ls ++ [l]) = l.bounded))

/-- The OPENs that start nothing, in their order: on hold COLLIDED with COLLISION; in DRAINING or QUIESCED the outcome
QUIESCED; in DOOMED the outcome DOOMED with last code, transient bit and depth; in IDLE an illegal argument SPEC. The
CLOSEs that touch no group: COLLIDED, SPEC and NOTOPEN. -/
def Obligations.OpenAndCloseRefusals : Prop :=
  (∀ (s : State) (p : PortId) (arg : Arg) (x : Context), s.free p → s.settled → s.ctx (s.serving p) = x →
    ((x.state = .committing ∨ x.state = .aborting) →
      exec (.markOpen p arg) s = .next (s.flagged p .collision [.word 0x0000000B])) ∧
    (x.state ≠ .committing → x.state ≠ .aborting → s.bridge ≠ .running →
      exec (.markOpen p arg) s = .next (s.answered p [.word 0x0000000A])) ∧
    (x.state = .doomed → s.bridge = .running → exec (.markOpen p arg) s = .next (s.answered p
      [.word (field 7 0 ||| field x.depth 4 ||| bitField (x.lastCode.any AbortCode.transient) 7 |||
        field (x.lastCode.elim 0 fun a => a.num.toNat) 8)])) ∧
    (x.state = .idle → s.bridge = .running → (arg.extractLsb' 2 2 = 3 ∨ arg.extractLsb' 4 12 ≠ 0) →
      exec (.markOpen p arg) s = .next (s.answered p [.word 0x00000009]))) ∧
  (∀ (s : State) (p : PortId) (arg : Arg) (x : Context), s.free p → s.settled → s.ctx (s.serving p) = x →
    ((x.state = .committing ∨ x.state = .aborting ∧ x.held ≠ none) →
      exec (.markClose p arg) s = .next (s.flagged p .collision [.word 0x0000000B])) ∧
    (x.state ≠ .committing → ¬ (x.state = .aborting ∧ x.held ≠ none) → arg ≠ 0 →
      exec (.markClose p arg) s = .next (s.answered p [.word 0x00000009])) ∧
    (x.state = .idle → exec (.markClose p 0) s = .next (s.answered p [.word 0x00000008])))

/-- The outermost CLOSE of a group that owns no slot ends it at once: read set cleared, off the age list, commit notice,
IDLE, COMMITTED. A CLOSE in DOOMED clears the context and answers ABORTED with the last code; a CLOSE in ABORTING with
no mark held becomes the held mark and is not answered. The commit notice: counter 0, queue place kept, and a HELD token
of the context freed, the timer unlimited, and granted to the queue's head. -/
def Obligations.CloseWithNothingToCommit : Prop :=
  (∀ (s : State) (p : PortId) (c : CtxId), s.free p → s.settled → s.serving p = c →
    (s.ctx c).state = .opened → (s.ctx c).depth = 1 → s.order c = [] →
    exec (.markClose p 0) s = .next (((((s.answered p [.word 0x00000004]).setReads c []).setAges
      (s.ages.filter (· ≠ c))).commitNotice c).setCtx c
        { s.ctx c with
          state := .idle, depth := 0, levels := [], escape := false, notice := 0, bounded := false
          recAddr := none, release := false, held := none })) ∧
  (∀ (s : State) (p : PortId) (c : CtxId) (x : Context), s.free p → s.settled → s.serving p = c → s.ctx c = x →
    (x.state = .doomed → exec (.markClose p 0) s = .next ((s.answered p
      [.word (field 6 0 ||| field x.depth 4 ||| bitField (x.lastCode.any AbortCode.transient) 7 |||
        field (x.lastCode.elim 0 fun a => a.num.toNat) 8)]).setCtx c
      { x with
        state := .idle, depth := 0, levels := [], escape := false, notice := 0, bounded := false
        recAddr := none, release := false, held := none })) ∧
    (x.state = .aborting → x.held = none → exec (.markClose p 0) s =
      .next (((s.answered p []).setCtx c { x with held := some p }).setCycle p (some ⟨5, 0x0080000, 0, .held⟩)))) ∧
  (∀ (s : State) (c : CtxId),
    (s.token ≠ .held c → s.commitNotice c = { s with counters := s.counters.set c 0 }) ∧
    (s.token = .held c → s.prioQueue = [] → s.commitNotice c =
      { s with counters := s.counters.set c 0, token := .free, window := none }) ∧
    (∀ h r, s.escalationFormed → s.token = .held c → s.prioQueue = h :: r → s.commitNotice c =
      { s with
        counters := s.counters.set c 0, token := .reserved h, prioQueue := r
        window := if s.windowLen = 255 then none else some s.windowLen.toNat }))

/-- The outermost CLOSE of a group that owns slots starts the commit: COMMITTING, off the age list, read set cleared,
slots LOCKED and every other slot left, commit notice (as CloseWithNothingToCommit gives it), a commit job for all its
lines at the tail, the CLOSE held and unanswered. -/
def Obligations.CloseStartsACommit : Prop :=
  (∀ (s : State) (p : PortId) (c : CtxId), s.free p → s.serving p = c →
    (s.ctx c).state = .opened → (s.ctx c).depth = 1 → s.order c ≠ [] →
    exec (.markClose p 0) s = .next ((((((((s.answered p []).setReads c []).setAges
      (s.ages.filter (· ≠ c))).commitNotice c).lockSlots c).setJobs
        (s.jobs ++ [⟨c, .commit (s.order c).length 0 0, .waiting⟩])).setCtx c
          { s.ctx c with state := .committing, held := some p }).setCycle p (some ⟨5, 0x0080000, 0, .held⟩)).settle) ∧
  ∀ (s : State) (c : CtxId), s.lockSlots c = { s with slots := (s.lockSlots c).slots } ∧
    ∀ k : SlotId, (s.lockSlots c).slots[k] =
      if k ∈ s.order c then (s.slots[k]).map fun b => { b with locked := true } else s.slots[k]

/-! ### DROP, RECADDR, STATUS, GETCFG -/

/-- DROP with good parity: on hold it collides; illegal, or in IDLE or DOOMED, it is refused; in OPEN it aborts the
group with its code, without cause and party, and is answered DONE. The code is of class 3, transient when even. -/
def Obligations.DropByState : Prop :=
  (∀ (s : State) (p : PortId) (arg : Arg) (data : Word) (par : Lanes) (c : CtxId), s.free p → s.serving p = c →
    beatGood 0xF data par →
    ((s.ctx c).state = .committing ∨ (s.ctx c).state = .aborting → s.settled →
      exec (.markDrop p arg data par) s = .next (s.flagged p .collision [.error])) ∧
    ((s.ctx c).state ≠ .committing → (s.ctx c).state ≠ .aborting → s.settled →
      (arg ≠ 0 ∨ data.extractLsb' 8 24 ≠ 0 ∨ (data.extractLsb' 0 8).toNat < 16 ∨ (s.ctx c).state ≠ .opened) →
      exec (.markDrop p arg data par) s = .next (s.flagged p .refused [.error])) ∧
    ((s.ctx c).state = .opened → arg = 0 → data.extractLsb' 8 24 = 0 → 16 ≤ (data.extractLsb' 0 8).toNat →
      exec (.markDrop p arg data par) s = .next (((s.answered p []).abort c
        (.user (data.extractLsb' 0 8)) none none).respond p [.done]).settle)) ∧
  ∀ b : Byte, (AbortCode.user b).num = b ∧ (AbortCode.user b).cls = 3 ∧
    ((AbortCode.user b).transient = true ↔ b.toNat % 2 = 0)

/-- RECADDR with good parity: on hold it collides; an illegal word or argument is refused with the pending address left;
otherwise the pending address becomes the address, or none for 0. -/
def Obligations.RecAddrSetsThePendingAddress : Prop :=
  ∀ (s : State) (p : PortId) (arg : Arg) (data : Word) (par : Lanes) (x : Context), s.free p → s.settled →
    s.ctx (s.serving p) = x → beatGood 0xF data par →
    (x.state = .committing ∨ x.state = .aborting →
      exec (.markRecAddr p arg data par) s = .next (s.flagged p .collision [.error])) ∧
    (x.state ≠ .committing → x.state ≠ .aborting →
      (arg ≠ 0 ∨ data ≠ 0 ∧ (data.extractLsb' 0 5 ≠ 0 ∨ data.extractLsb' 28 4 ≠ 0)) →
      exec (.markRecAddr p arg data par) s = .next (s.flagged p .refused [.error])) ∧
    (x.state ≠ .committing → x.state ≠ .aborting → arg = 0 → data = 0 → exec (.markRecAddr p arg data par) s =
      .next (s.setPort p { s.port p with pendRec := none, answers := [.done] })) ∧
    (x.state ≠ .committing → x.state ≠ .aborting → arg = 0 → data ≠ 0 → data.extractLsb' 0 5 = 0 →
      data.extractLsb' 28 4 = 0 → exec (.markRecAddr p arg data par) s =
      .next (s.setPort p { s.port p with pendRec := some (data.extractLsb' 0 28), answers := [.done] }))

/-- A write mark whose data word fails its parity is refused with PARITY before anything else, whatever the state of its
context; from an OPEN context it aborts the group with PARITY before it is answered, without a party. (The cause that
the abort carries for a mark, the mark's address, is the model's reading: log entry 13.) -/
def Obligations.WriteMarkOfBadParity : Prop :=
  ∀ (s : State) (p : PortId) (c : CtxId) (i : Instr) (code : Nat) (arg : Arg) (data : Word) (par : Lanes),
    s.free p → s.serving p = c → beatGood 0xF data par = false →
    (code = 9 ∧ i = .markDrop p arg data par ∨ code = 10 ∧ i = .markRecAddr p arg data par ∨
      code = 11 ∧ (i = .setCfgUndefinedItem p arg data par ∨
        (∃ k : Fin 8, arg.toNat = k.val ∧ i = .setCfgRegion p k data par) ∨
        arg = 0x08 ∧ i = .setCfgPairing p data par ∨
        (∃ d : CtxId, arg.toNat = 0x09 + d.val ∧ i = .setCfgLifetime p d data par) ∨
        arg = 0x0D ∧ i = .setCfgSlotCaps p data par ∨ arg = 0x0E ∧ i = .setCfgEscalation p data par ∨
        arg = 0x0F ∧ i = .setCfgTickSource p data par ∨ arg = 0x10 ∧ i = .setCfgFaultMasks p data par)) →
    ((s.ctx c).state ≠ .opened → s.settled → exec i s = .next (s.flagged p .parity [⟨.error, none⟩])) ∧
    ((s.ctx c).state = .opened → exec i s = .next ((((s.answered p []).setFlag p .parity).takeAbort c .parity
      (some (BitVec.ofNat 28 (code * 2 ^ 18 + arg.toNat * 4))) none).respond p [⟨.error, none⟩]).settle)

/-- STATUS answers the word of the serving context and of the port's own flags as they stand, and then clears the flags
its mask selects; argument bits 15:8 set are refused and clear nothing. GETCFG answers the item as it stands, in the
layout of section 12.6, from the configuration port and for a defined item only. The relation of a context is HELD or
RESERVED when it owns the token so, else QUEUED in the queue, else NONE; and the codes of states, relations and kinds.
-/
def Obligations.StatusAndGetCfgReadTheState : Prop :=
  (∀ (s : State) (p : PortId) (arg : Arg) (c : CtxId), s.free p → s.settled → s.serving p = c →
    (arg.extractLsb' 8 8 ≠ 0 → exec (.markStatus p arg) s =
      .next (s.flagged p .refused [⟨.error, some (0, wordParity 0)⟩])) ∧
    (arg.extractLsb' 8 8 = 0 → exec (.markStatus p arg) s = .next (s.setPort p
      { s.port p with
        flags := (s.port p).flags &&& ~~~(arg.extractLsb' 0 8)
        answers := [.word (field (s.ctx c).state.num 0 ||| field (s.ctx c).depth 4 |||
          field (s.relation c).num 8 ||| field (s.counters.get c) 12 ||| field (s.port p).flags.toNat 16 |||
          field ((s.ctx c).lastCode.elim 0 fun a => a.num.toNat) 24)] }))) ∧
  (∀ (s : State) (p : PortId) (item : Arg), s.free p → s.settled →
    (p ≠ s.cfgPort ∨ 0x10 < item.toNat → exec (.markGetCfg p item) s =
      .next (s.flagged p .refused [⟨.error, some (0, wordParity 0)⟩])) ∧
    (p = s.cfgPort → item.toNat ≤ 0x10 → ∃ w, exec (.markGetCfg p item) s = .next (s.answered p [.word w]) ∧
      (∀ k : Fin 8, item.toNat = k.val → (s.regions[k] = none → w = 0) ∧ (∀ r, s.regions[k] = some r →
        w = field r.base.toNat 0 ||| field r.exp.toNat 23 ||| field r.kind.num 28)) ∧
      (item = 0x08 → w = bitField s.joinA 0 ||| bitField s.joinB 1) ∧
      (∀ c : CtxId, item.toNat = 0x09 + c.val → w = field (s.lifetimes.get c).limit.toNat 0 |||
        bitField ((s.lifetimes.get c).mode = .cycles) 16) ∧
      (item = 0x0D → w = field (s.caps.get 0) 0 ||| field (s.caps.get 1) 8 ||| field (s.caps.get 2) 16 |||
        field (s.caps.get 3) 24) ∧
      (item = 0x0E → w = field s.threshold.toNat 0 ||| field s.windowLen.toNat 8) ∧
      (item = 0x0F → w = field s.tickSource.toNat 0) ∧
      (item = 0x10 → w = field s.masks.toNat 0))) ∧
  (∀ (s : State) (c : CtxId), (s.token = .held c → s.relation c = .held) ∧
    (s.token = .reserved c → s.relation c = .reserved) ∧
    (s.token ≠ .held c → s.token ≠ .reserved c →
      s.relation c = if c ∈ s.prioQueue then .queued else .none)) ∧
  [CtxState.idle, .opened, .committing, .aborting, .doomed].map CtxState.num = [0, 1, 2, 3, 4] ∧
  [Relation.none, .queued, .reserved, .held].map Relation.num = [0, 1, 2, 3] ∧
  [Kind.tracked, .pass, .blocked].map Kind.num = [1, 2, 3]

/-! ### SETCFG -/

/-- A SETCFG of any item with good parity is answered ERROR with COLLISION on hold, and otherwise ERROR with CFGREJ when
it comes from another port, a context is not IDLE, a job is queued, or its argument names no item; no item changes. -/
def Obligations.SetCfgTurnedAway : Prop :=
  (∀ (s : State) (p : PortId) (data : Word) (par : Lanes) (x : Context) (f : Flag), s.free p → s.settled →
    beatGood 0xF data par → s.ctx (s.serving p) = x →
    ((x.state = .committing ∨ x.state = .aborting) ∧ f = .collision ∨
      (x.state ≠ .committing ∧ x.state ≠ .aborting) ∧ f = .cfgrej ∧
        (p ≠ s.cfgPort ∨ (∃ c, (s.ctx c).state ≠ .idle) ∨ s.jobs ≠ [])) →
    (∀ k, exec (.setCfgRegion p k data par) s = .next (s.flagged p f [.error])) ∧
    exec (.setCfgPairing p data par) s = .next (s.flagged p f [.error]) ∧
    (∀ c, exec (.setCfgLifetime p c data par) s = .next (s.flagged p f [.error])) ∧
    exec (.setCfgSlotCaps p data par) s = .next (s.flagged p f [.error]) ∧
    exec (.setCfgEscalation p data par) s = .next (s.flagged p f [.error]) ∧
    exec (.setCfgTickSource p data par) s = .next (s.flagged p f [.error]) ∧
    exec (.setCfgFaultMasks p data par) s = .next (s.flagged p f [.error]) ∧
    (∀ item, exec (.setCfgUndefinedItem p item data par) s = .next (s.flagged p f [.error]))) ∧
  (∀ (s : State) (p : PortId) (item : Arg) (data : Word) (par : Lanes), s.acceptsCfg p data par → s.settled →
    0x10 < item.toNat → exec (.setCfgUndefinedItem p item data par) s = .next (s.flagged p .cfgrej [.error]))

/-- A region item: kind code 0 makes the entry absent; codes 1 to 3 set it when the exponent is 5 to 28, the base is
aligned and no other present entry shares a line with it; every other value is refused. A line has the kind of the one
present entry whose region holds it, and is PASS where none does. -/
def Obligations.SetCfgRegionSetsAnEntry : Prop :=
  (∀ (s : State) (p : PortId) (k : Fin 8) (data : Word) (par : Lanes) (r : Region), s.acceptsCfg p data par →
    s.settled → r.base = data.extractLsb' 0 23 → r.exp = data.extractLsb' 23 5 →
    (data.extractLsb' 30 2 = 0 → data.extractLsb' 28 2 = 0 → exec (.setCfgRegion p k data par) s =
      .next { s.answered p [.done] with regions := s.regions.set k none }) ∧
    (data.extractLsb' 30 2 = 0 →
      (data.extractLsb' 28 2 = 1 ∧ r.kind = .tracked ∨ data.extractLsb' 28 2 = 2 ∧ r.kind = .pass ∨
        data.extractLsb' 28 2 = 3 ∧ r.kind = .blocked) →
      5 ≤ r.exp.toNat → r.exp.toNat ≤ 28 → r.base.toNat % 2 ^ (r.exp.toNat - 5) = 0 →
      (∀ (j : Fin 8) (o : Region), j ≠ k → s.regions[j] = some o → ∀ l, ¬ (o.holds l ∧ r.holds l)) →
      exec (.setCfgRegion p k data par) s =
        .next { s.answered p [.done] with regions := s.regions.set k (some r) }) ∧
    (data.extractLsb' 30 2 ≠ 0 ∨ data.extractLsb' 28 2 ≠ 0 ∧ (r.exp.toNat < 5 ∨ 28 < r.exp.toNat ∨
        r.base.toNat % 2 ^ (r.exp.toNat - 5) ≠ 0 ∨
        ∃ (j : Fin 8) (o : Region) (l : Line), j ≠ k ∧ s.regions[j] = some o ∧ o.holds l ∧ r.holds l) →
      exec (.setCfgRegion p k data par) s = .next (s.flagged p .cfgrej [.error]))) ∧
  (∀ (s : State) (l : Line),
    ((∀ (k : Fin 8) (r : Region), s.regions[k] = some r → r.holds l = false) → s.kindOf l = .pass) ∧
    (∀ (k : Fin 8) (r : Region), s.regions[k] = some r → r.holds l →
      (∀ (j : Fin 8) (o : Region), j ≠ k → s.regions[j] = some o → o.holds l = false) → s.kindOf l = r.kind)) ∧
  ∀ (r : Region) (l : Line), r.holds l = true ↔
    r.base.toNat ≤ l.toNat ∧ l.toNat < r.base.toNat + 2 ^ (r.exp.toNat - 5)

/-- The pairing item sets both pairs; a pair newly JOINED takes its upper context out of escalation (as
PortResetByContextState gives it). A JOINED pair is served by its lower context, a SEPARATE port by its own. A lifetime
item sets limit and mode of its context; limit 1 and bits outside the fields are refused. The slot caps are one byte a
context, each 1 to 48; any other byte refuses the item whole. -/
def Obligations.SetCfgPairingLifetimeAndSlotCaps : Prop :=
  (∀ (s t : State) (p : PortId) (data : Word) (par : Lanes), s.acceptsCfg p data par → s.settled →
    t = { s.answered p [.done] with joinA := data.getLsbD 0, joinB := data.getLsbD 1 } →
    (data.extractLsb' 2 30 ≠ 0 → exec (.setCfgPairing p data par) s = .next (s.flagged p .cfgrej [.error])) ∧
    (data.extractLsb' 2 30 = 0 → (data.getLsbD 0 = false ∨ s.joinA = true) →
      (data.getLsbD 1 = false ∨ s.joinB = true) → exec (.setCfgPairing p data par) s = .next t) ∧
    (data.extractLsb' 2 30 = 0 → data.getLsbD 0 = true → s.joinA = false →
      (data.getLsbD 1 = false ∨ s.joinB = true) → exec (.setCfgPairing p data par) s = .next (t.leaveEscalation 1)) ∧
    (data.extractLsb' 2 30 = 0 → (data.getLsbD 0 = false ∨ s.joinA = true) → data.getLsbD 1 = true →
      s.joinB = false → exec (.setCfgPairing p data par) s = .next (t.leaveEscalation 3)) ∧
    (data.extractLsb' 2 30 = 0 → data.getLsbD 0 = true → s.joinA = false → data.getLsbD 1 = true →
      s.joinB = false → exec (.setCfgPairing p data par) s = .next ((t.leaveEscalation 1).leaveEscalation 3))) ∧
  ((∀ (s : State) (p : PortId) (c : CtxId) (data : Word) (par : Lanes), s.acceptsCfg p data par → s.settled →
    (data.extractLsb' 17 15 ≠ 0 ∨ (data.extractLsb' 0 16).toNat = 1 →
      exec (.setCfgLifetime p c data par) s = .next (s.flagged p .cfgrej [.error])) ∧
    (data.extractLsb' 17 15 = 0 → (data.extractLsb' 0 16).toNat ≠ 1 → exec (.setCfgLifetime p c data par) s =
      .next { s.answered p [.done] with
        lifetimes := s.lifetimes.set c ⟨data.extractLsb' 0 16, if data.getLsbD 16 then .cycles else .time⟩ })) ∧
  (∀ (s : State) (p : PortId) (data : Word) (par : Lanes), s.acceptsCfg p data par → s.settled →
    ((∀ n < 4, 1 ≤ (laneByte data n).toNat ∧ (laneByte data n).toNat ≤ 48) →
      exec (.setCfgSlotCaps p data par) s = .next { s.answered p [.done] with
        caps := ⟨(laneByte data 0).toNat, (laneByte data 1).toNat, (laneByte data 2).toNat,
          (laneByte data 3).toNat⟩ }) ∧
    ((∃ n < 4, (laneByte data n).toNat = 0 ∨ 48 < (laneByte data n).toNat) →
      exec (.setCfgSlotCaps p data par) s = .next (s.flagged p .cfgrej [.error])))) ∧
  (∀ s : State, s.joined 0 = s.joinA ∧ s.joined 1 = s.joinA ∧ s.joined 2 = s.joinB ∧ s.joined 3 = s.joinB ∧
    (∀ p, s.joined p = false → s.serving p = p) ∧
    (s.joinA = true → s.serving 0 = 0 ∧ s.serving 1 = 0) ∧ (s.joinB = true → s.serving 2 = 2 ∧ s.serving 3 = 2))

/-- The escalation item sets threshold and window; with escalation off after it the queue is emptied and a RESERVED
token becomes FREE, and with it on queue, token and timer stand. The tick source 0 to 7 is set and the divisor count
restarts at 0, even when the source is the old one. The fault masks are set and FLT# follows the new masks at once:
asserted exactly when some port has a set flag whose mask bit is 0; no flag changes. -/
def Obligations.SetCfgEscalationTickSourceAndFaultMasks : Prop :=
  (∀ (s t : State) (p : PortId) (data : Word) (par : Lanes), s.acceptsCfg p data par → s.settled →
    t = { s.answered p [.done] with threshold := data.extractLsb' 0 4, windowLen := data.extractLsb' 8 8 } →
    (data.extractLsb' 4 4 ≠ 0 ∨ data.extractLsb' 16 16 ≠ 0 →
      exec (.setCfgEscalation p data par) s = .next (s.flagged p .cfgrej [.error])) ∧
    (data.extractLsb' 4 4 = 0 → data.extractLsb' 16 16 = 0 →
      data.extractLsb' 0 4 ≠ 0 → data.extractLsb' 8 8 ≠ 0 → exec (.setCfgEscalation p data par) s = .next t) ∧
    (data.extractLsb' 4 4 = 0 → data.extractLsb' 16 16 = 0 →
      (data.extractLsb' 0 4 = 0 ∨ data.extractLsb' 8 8 = 0) → (∀ c, s.token = .reserved c →
        exec (.setCfgEscalation p data par) s = .next { t with prioQueue := [], token := .free, window := none }) ∧
      ((∀ c, s.token ≠ .reserved c) → exec (.setCfgEscalation p data par) s = .next { t with prioQueue := [] }))) ∧
  ((∀ (s : State) (p : PortId) (data : Word) (par : Lanes), s.acceptsCfg p data par → s.settled →
    (data.extractLsb' 3 29 ≠ 0 →
      exec (.setCfgTickSource p data par) s = .next (s.flagged p .cfgrej [.error])) ∧
    (data.extractLsb' 3 29 = 0 → exec (.setCfgTickSource p data par) s =
      .next { s.answered p [.done] with tickSource := data.extractLsb' 0 3, divisor := 0 })) ∧
  (∀ (s : State) (p : PortId) (data : Word) (par : Lanes), s.acceptsCfg p data par → s.settled →
    (data.extractLsb' 8 24 ≠ 0 →
      exec (.setCfgFaultMasks p data par) s = .next (s.flagged p .cfgrej [.error])) ∧
    (data.extractLsb' 8 24 = 0 → ∃ t, exec (.setCfgFaultMasks p data par) s = .next t ∧
      t = { s.answered p [.done] with masks := data.extractLsb' 0 8 } ∧
      (t.flt = true ↔ ∃ (q : PortId) (b : Nat), b < 8 ∧ (s.port q).flags.getLsbD b = true ∧
        data.getLsbD b = false))))

/-! ### When a port takes a cycle, and which -/

/-- A port in reset takes no cycle, whatever its pins show, and neither does one with a cycle in progress: the command
changes nothing (that it is lost is the model's choice, log entry 4, DEDUCED). Only a write whose beats are still
arriving goes on, with beats of its own kind. -/
def Obligations.PortThatCannotTakeACycle : Prop :=
  ∀ (s : State) (i : Instr) (p : PortId) (r : RawCycle), i.pins = some (p, r) →
    (s.rst = true → exec i s = .next s) ∧
    ((s.port p).resetPin = true → exec i s = .next s) ∧
    (∀ y, (s.port p).cycle = some y → (∀ got, y.phase ≠ .arriving got) → exec i s = .next s) ∧
    (∀ y, (s.port p).cycle = some y → (r.kind ≠ y.kind ∨
      (∀ a d, i ≠ .memWrite p a d) ∧ ∀ q, i ≠ .malformedCycle p q) → exec i s = .next s)

/-- The beats of a write arrive with one command or with several. Until the last has come they are kept in the port's
cycle in progress, with the kind, address and length sampled when it began, and nothing else changes; then the cycle is
taken as if all had come at once, and beats beyond the length are not its own. The same holds of a malformed cycle of a
write kind. (That a command may bring some of the beats is the model's choice, log entry 5.) -/
def Obligations.WriteBeatsArrive : Prop :=
  ∀ (s : State) (p : PortId) (k : BitVec 3) (a b : Addr) (n m : BitVec 2) (bs : List WriteBeat)
    (bring : Addr → BitVec 2 → List WriteBeat → Instr),
    (k = 2 ∧ (bring = fun x l ws => .memWrite p x ⟨l, ws⟩) ∨
      (k = 2 ∨ k = 4 ∨ k = 6) ∧ bring = fun x l ws => .malformedCycle p ⟨k, x, l, ws⟩) →
    (s.takesCycle p → bs.length < 2 ^ n.toNat → exec (bring a n bs) s =
      .next ((s.answered p []).setCycle p (some ⟨k, a, n, .arriving bs⟩))) ∧
    (s.takesCycle p → 2 ^ n.toNat ≤ bs.length →
      exec (bring a n bs) s = exec (bring a n (bs.take (2 ^ n.toNat))) s) ∧
    (∀ got, s.rst = false → (s.port p).resetPin = false → (s.port p).cycle = some ⟨k, a, n, .arriving got⟩ →
      ((got ++ bs).length < 2 ^ n.toNat → exec (bring b m bs) s =
        .next (s.setCycle p (some ⟨k, a, n, .arriving (got ++ bs)⟩))) ∧
      (2 ^ n.toNat ≤ (got ++ bs).length → (s.port p).answers = [] → exec (bring b m bs) s =
        exec (bring a n ((got ++ bs).take (2 ^ n.toNat))) (s.setCycle p none)))

/-- The mark address: code in bits 21:18, argument in bits 17:2. A bit outside the fields, or a code that is none of its
direction's, makes the mark malformed; every other mark of one beat with every enable set is the mark of its code, with
that argument and, for a write mark, that data word. The address of a mark is its code's with argument times 4 added. -/
def Obligations.MarkAddressesDecode : Prop :=
  (∀ (p : PortId) (r : RawCycle) (code : Nat) (arg : Arg) (data : Word) (par : Lanes), r.kind = 5 ∨ r.kind = 6 →
    code = (r.addr.extractLsb' 18 4).toNat → (∀ i < 16, arg.getLsbD i = r.addr.getLsbD (i + 2)) →
    (r.addr.extractLsb' 22 6 ≠ 0 ∨ r.addr.extractLsb' 0 2 ≠ 0 ∨ r.kind = 5 ∧ code ∉ [1, 2, 3, 4] ∨
      r.kind = 6 ∧ code ∉ [9, 10, 11] → decodeCycle p r = some (.malformedCycle p r)) ∧
    (r.addr.extractLsb' 22 6 = 0 → r.addr.extractLsb' 0 2 = 0 → r.len = 0 → r.beat 0 = ⟨0xF, data, par⟩ →
      (r.kind = 5 → (code = 1 → decodeCycle p r = some (.markOpen p arg)) ∧
        (code = 2 → decodeCycle p r = some (.markClose p arg)) ∧
        (code = 3 → decodeCycle p r = some (.markStatus p arg)) ∧
        (code = 4 → decodeCycle p r = some (.markGetCfg p arg))) ∧
      (r.kind = 6 → (code = 9 → decodeCycle p r = some (.markDrop p arg data par)) ∧
        (code = 10 → decodeCycle p r = some (.markRecAddr p arg data par)) ∧
        (code = 11 → (∀ k : Fin 8, arg.toNat = k.val → decodeCycle p r = some (.setCfgRegion p k data par)) ∧
          (arg = 0x08 → decodeCycle p r = some (.setCfgPairing p data par)) ∧
          (∀ c : CtxId, arg.toNat = 0x09 + c.val → decodeCycle p r = some (.setCfgLifetime p c data par)) ∧
          (arg = 0x0D → decodeCycle p r = some (.setCfgSlotCaps p data par)) ∧
          (arg = 0x0E → decodeCycle p r = some (.setCfgEscalation p data par)) ∧
          (arg = 0x0F → decodeCycle p r = some (.setCfgTickSource p data par)) ∧
          (arg = 0x10 → decodeCycle p r = some (.setCfgFaultMasks p data par)) ∧
          (0x10 < arg.toNat → decodeCycle p r = some (.setCfgUndefinedItem p arg data par)))))) ∧
  ∀ arg : Arg, [(1, 0x0040000), (2, 0x0080000), (3, 0x00C0000), (4, 0x0100000), (9, 0x0240000), (10, 0x0280000),
    (11, 0x02C0000)].all fun (m : Nat × Addr) => markAddr m.1 arg == m.2 + BitVec.ofNat 28 (arg.toNat * 4)

/-- Every well-formed command that is a cycle is read back from its pins, with every operand; and a raw cycle, all its
beats shown, does on a port with no cycle in progress what the command does that it decodes to (the model's reading of a
MALFORMED_CYCLE whose cycle is not malformed, log entry 15); kind 0 begins no cycle. -/
def Obligations.CyclesAreReadBackFromTheirPins : Prop :=
  (∀ (i : Instr) (p : PortId) (r : RawCycle), i.wellFormed → i.pins = some (p, r) → decodeCycle p r = some i) ∧
  (∀ (s : State) (i : Instr) (p : PortId) (r : RawCycle), decodeCycle p r = some i → (s.port p).cycle = none →
    2 ^ r.len.toNat ≤ r.beats.length → exec (.malformedCycle p r) s = exec i s) ∧
  ∀ (s : State) (p : PortId) (r : RawCycle), r.kind = 0 → exec (.malformedCycle p r) s = .next s

/-! ### Memory cycles outside a group -/

/-- An ungrouped read: refused on a BLOCKED line on every beat, RETRY on a locked line, and otherwise one burst of its
own shape requested from memory; it aborts no group. (How the ERROR beats are paced, the first now and each other at a
later part clock, is the model's choice, log entry 5.) -/
def Obligations.UngroupedRead : Prop :=
  (∀ (s : State) (p : PortId) (a : Addr) (ens : List Lanes), s.free p → legalBurst a ens.length →
    (s.ctx (s.serving p)).state ≠ .opened →
    (s.settled → s.kindOf (lineOf a) = .blocked → exec (.memRead p a ens) s =
      .next ((s.flagged p .refused []).answerBeats p 1 a
        (List.replicate ens.length ⟨.error, some (0, wordParity 0)⟩))) ∧
    (s.settled → s.kindOf (lineOf a) ≠ .blocked → s.lockedFor p (lineOf a) →
      exec (.memRead p a ens) s = .next (s.answered p [⟨.retry, none⟩])) ∧
    (s.kindOf (lineOf a) ≠ .blocked → s.lockedFor p (lineOf a) = false → exec (.memRead p a ens) s =
      .next (((s.answered p []).setCycle p (some ⟨1, a, lenCode ens.length,
        .reading (ens.map fun e => ⟨e, 0, 0, false⟩) none⟩)).setReq p
          (some ⟨⟨false, a, ens.map fun e => ⟨e, 0⟩⟩, false⟩)).settle)) ∧
  ∀ (s : State) (p : PortId) (k : BitVec 3) (a : Addr) (x : Answer) (rest : List Answer),
    s.answerBeats p k a (x :: rest) = s.setPort p
      { s.port p with
        answers := (s.port p).answers ++ [x]
        cycle := if rest = [] then none else some ⟨k, a, lenCode (rest.length + 1), .answering rest⟩ }

/-- An ungrouped MEM-WRITE of good parity, in its order: ERROR and REFUSED on a BLOCKED line, RETRY on a locked line,
RETRY on a TRACKED line of the HELD token's owner, and otherwise invasion of every OPEN group that holds a TRACKED line,
and the burst requested, in flight on its line. From an ABORTING or DOOMED context the write is discarded and answered
DONE, whatever its line, its locks and its kind. A write sent to memory: its cycle in progress, its request with
address, enables and 00h in lanes not enabled, and its line in flight. (Several aborts of one claim come in some order,
as AbortEndsTheGroup says.) -/
def Obligations.UngroupedAndDiscardedWrites : Prop :=
  (∀ (s : State) (p : PortId) (a : Addr) (bs : List WriteBeat) (l : Line), s.free p → legalBurst a bs.length →
    writeGood bs → ((s.ctx (s.serving p)).state = .idle ∨ (s.ctx (s.serving p)).state = .committing) →
    l = lineOf a →
    (s.settled → s.kindOf l = .blocked →
      exec (.memWrite p a ⟨lenCode bs.length, bs⟩) s = .next (s.flagged p .refused [⟨.error, none⟩])) ∧
    (s.settled → s.kindOf l ≠ .blocked → (s.lockedFor p l ∨
        s.kindOf l = .tracked ∧ ∃ c, s.token = .held c ∧ (s.ctx c).state = .opened ∧ s.inFootprint c l) →
      exec (.memWrite p a ⟨lenCode bs.length, bs⟩) s = .next (s.answered p [⟨.retry, none⟩])) ∧
    (s.kindOf l ≠ .blocked → s.lockedFor p l = false → ¬ (s.kindOf l = .tracked ∧
        ∃ c, s.token = .held c ∧ (s.ctx c).state = .opened ∧ s.inFootprint c l) →
      exec (.memWrite p a ⟨lenCode bs.length, bs⟩) s = .next ((if s.kindOf l = .tracked then
        (s.answered p []).abortAll (s.holders l) .invaded (some a) (some (.port p)) else s.answered p []).sendWrite
          p 2 a bs).settle)) ∧
  (∀ (s : State) (p : PortId) (a : Addr) (bs : List WriteBeat), s.free p → s.settled → legalBurst a bs.length →
    writeGood bs → ((s.ctx (s.serving p)).state = .aborting ∨ (s.ctx (s.serving p)).state = .doomed) →
    exec (.memWrite p a ⟨lenCode bs.length, bs⟩) s = .next (s.answered p [⟨.done, none⟩])) ∧
  ∀ (s : State) (p : PortId) (k : BitVec 3) (a : Addr) (bs : List WriteBeat), s.sendWrite p k a bs =
    { s with
      ports := s.ports.set p { s.port p with cycle := some ⟨k, a, lenCode bs.length, .writing bs⟩ }
      reqs := s.reqs.set p (some ⟨⟨true, a, bs.map fun b =>
        ⟨b.en, laneWord fun n => if b.en.getLsbD n then laneByte b.data n else 0⟩⟩, false⟩)
      inFlight := s.inFlight ++ [(p, lineOf a)] }

/-- A write of bad parity is refused whole with PARITY, in every state of its context; an OPEN group is aborted with
PARITY, its cause the address of the first beat, and the cycle has been counted. Good is a write whose every enabled
byte agrees with its parity bit. -/
def Obligations.WriteOfBadParity : Prop :=
  (∀ (s : State) (p : PortId) (a : Addr) (bs : List WriteBeat) (c : CtxId), s.free p → legalBurst a bs.length →
    writeGood bs = false → s.serving p = c →
    (s.settled → (s.ctx c).state ≠ .opened →
      exec (.memWrite p a ⟨lenCode bs.length, bs⟩) s = .next (s.flagged p .parity [⟨.error, none⟩])) ∧
    ((s.ctx c).state = .opened → exec (.memWrite p a ⟨lenCode bs.length, bs⟩) s =
      .next (((((s.answered p []).counted p).setFlag p .parity).takeAbort c .parity (some a) none).respond p
        [⟨.error, none⟩]).settle)) ∧
  ∀ bs : List WriteBeat, writeGood bs = true ↔
    ∀ b ∈ bs, ∀ n < 4, b.en.getLsbD n = true → byteParity (laneByte b.data n) = b.par.getLsbD n

/-- A LOCK-READ from a context that is not OPEN: refused on a BLOCKED line, RETRY on a locked line or one of the HELD
token's owner; let through, it invades, opens the pair on its line and requests its beat. From an OPEN context it is
counted and aborts its own group with LOCKED before it goes on as a locked cycle in the same way. (Several aborts come
in some order, as AbortEndsTheGroup says.) -/
def Obligations.LockReads : Prop :=
  (∀ (s : State) (p : PortId) (a : Addr) (en : Lanes) (l : Line), s.free p → legalBurst a 1 →
    (s.ctx (s.serving p)).state ≠ .opened → l = lineOf a →
    (s.settled → s.kindOf l = .blocked → exec (.lockRead p a en) s =
      .next (s.flagged p .refused [⟨.error, some (0, wordParity 0)⟩])) ∧
    (s.settled → s.kindOf l ≠ .blocked → (s.lockedFor p l ∨
        s.kindOf l = .tracked ∧ ∃ c, s.token = .held c ∧ (s.ctx c).state = .opened ∧ s.inFootprint c l) →
      exec (.lockRead p a en) s = .next (s.answered p [⟨.retry, none⟩])) ∧
    (s.kindOf l ≠ .blocked → s.lockedFor p l = false → ¬ (s.kindOf l = .tracked ∧
        ∃ c, s.token = .held c ∧ (s.ctx c).state = .opened ∧ s.inFootprint c l) →
      exec (.lockRead p a en) s = .next ((((if s.kindOf l = .tracked then
        (s.answered p []).abortAll (s.holders l) .invaded (some a) (some (.port p))
        else s.answered p []).setPair p (some l)).setCycle p
          (some ⟨3, a, 0, .reading [⟨en, 0, 0, false⟩] none⟩)).setReq p
            (some ⟨⟨false, a, [⟨en, 0⟩]⟩, false⟩)).settle)) ∧
  (∀ (s : State) (p : PortId) (a : Addr) (en : Lanes) (c : CtxId), s.free p → legalBurst a 1 → s.serving p = c →
    (s.ctx c).state = .opened → exec (.lockRead p a en) s =
      .next ((((s.answered p []).counted p).takeAbort c .locked (some a) none).lockedRead p a en).settle) ∧
  (∀ (t : State) (p : PortId) (a : Addr) (en : Lanes) (l : Line), l = lineOf a →
    (t.kindOf l = .blocked → t.lockedRead p a en =
      (t.setFlag p .refused).respond p [⟨.error, some (0, wordParity 0)⟩]) ∧
    (t.kindOf l ≠ .blocked → (t.lockedFor p l ∨
        t.kindOf l = .tracked ∧ ∃ c, t.token = .held c ∧ (t.ctx c).state = .opened ∧ t.inFootprint c l) →
      t.lockedRead p a en = t.respond p [⟨.retry, none⟩]) ∧
    (t.kindOf l ≠ .blocked → t.lockedFor p l = false → ¬ (t.kindOf l = .tracked ∧
        ∃ c, t.token = .held c ∧ (t.ctx c).state = .opened ∧ t.inFootprint c l) →
      t.lockedRead p a en = (((if t.kindOf l = .tracked then
        t.abortAll (t.holders l) .invaded (some a) (some (.port p)) else t).setPair p (some l)).setCycle p
          (some ⟨3, a, 0, .reading [⟨en, 0, 0, false⟩] none⟩)).setReq p (some ⟨⟨false, a, [⟨en, 0⟩]⟩, false⟩)))

/-- The LOCK-WRITE to the line of its port's pair, of good parity, ends the pair, invades every OPEN group that holds
the line whatever locks and token say, and raises a closing request; of bad parity it is not performed and still ends
the pair, without REFUSED. A stray LOCK-WRITE is an ungrouped write in every context state, staged and discarded in
none: ERROR and REFUSED on a BLOCKED line, RETRY on a locked line or one of the HELD token's owner, and otherwise
invasion, of its own group too, and the burst requested. From an OPEN context each is counted, an expiry following it;
bad parity aborts the OPEN group with PARITY, and is refused in every state. (Sent to memory as
UngroupedAndDiscardedWrites says; several aborts come in some order, as AbortEndsTheGroup says.) -/
def Obligations.LockWrites : Prop :=
  (∀ (s : State) (p : PortId) (a : Addr) (b : WriteBeat) (c : CtxId) (t : State), s.takesCycle p →
    legalBurst a 1 → (s.port p).pair = some (lineOf a) → writeGood [b] → s.serving p = c →
    t = (((((s.answered p []).counted p).setPair p none).abortAll
      (((s.answered p []).counted p).holders (lineOf a)) .invaded (some a) (some (.port p))).setCycle p
        (some ⟨4, a, 0, .writing [b]⟩)).setReq p (some ⟨⟨true, a, [⟨b.en, maskLanes b.en b.data⟩]⟩, true⟩) →
    exec (.lockWrite p a b) s = .next (if s.countExpires p then t.abort c .timeout else t).settle) ∧
  (∀ (s t : State) (p : PortId) (a : Addr) (b : WriteBeat) (c : CtxId) (l : Line), s.free p → legalBurst a 1 →
    writeGood [b] → s.serving p = c → l = lineOf a → t = (s.answered p []).counted p →
    (s.kindOf l = .blocked → exec (.lockWrite p a b) s =
      .next (((t.setFlag p .refused).respond p [⟨.error, none⟩]).expire c (s.countExpires p)).settle) ∧
    (s.kindOf l ≠ .blocked → (s.lockedFor p l ∨
        s.kindOf l = .tracked ∧ ∃ d, s.token = .held d ∧ (s.ctx d).state = .opened ∧ s.inFootprint d l) →
      exec (.lockWrite p a b) s = .next ((t.respond p [⟨.retry, none⟩]).expire c (s.countExpires p)).settle) ∧
    (s.kindOf l ≠ .blocked → s.lockedFor p l = false → ¬ (s.kindOf l = .tracked ∧
        ∃ d, s.token = .held d ∧ (s.ctx d).state = .opened ∧ s.inFootprint d l) →
      exec (.lockWrite p a b) s = .next (((if s.kindOf l = .tracked then
        t.abortAll (s.holders l) .invaded (some a) (some (.port p)) else t).sendWrite p 4 a [b]).expire c
          (s.countExpires p)).settle)) ∧
  (∀ (s t : State) (p : PortId) (a : Addr) (b : WriteBeat) (c : CtxId), s.takesCycle p → legalBurst a 1 →
    ((s.port p).pair = none ∨ (s.port p).pair = some (lineOf a)) → writeGood [b] = false → s.serving p = c →
    t = (((s.answered p []).counted p).setPair p none).setFlag p .parity →
    ((s.ctx c).state ≠ .opened →
      exec (.lockWrite p a b) s = .next (t.respond p [⟨.error, none⟩]).settle) ∧
    ((s.ctx c).state = .opened → exec (.lockWrite p a b) s =
      .next ((t.takeAbort c .parity (some a) none).respond p [⟨.error, none⟩]).settle))

/-- Which raw cycles are malformed: kind 7; an address off its own burst's alignment; a locked cycle longer than one
beat; a mark longer than one beat, with an enable clear, a bit outside its fields or a code not of its direction. Such a
cycle is answered ERROR, a read kind on every beat, a write kind once after its last data beat, kind 7 once; REFUSED is
set and nothing else changes. A burst is legal with 1, 2, 4 or 8 beats at its own alignment. (How the beats of a read
kind are paced is the model's choice, log entry 5.) -/
def Obligations.MalformedCyclesAreRefused : Prop :=
  (∀ r : RawCycle, malformed r = true ↔ r.kind ≠ 0 ∧
    (r.kind = 7 ∨ r.addr.toNat % (4 * 2 ^ r.len.toNat) ≠ 0 ∨ ((r.kind = 3 ∨ r.kind = 4) ∧ r.len ≠ 0) ∨
     ((r.kind = 5 ∨ r.kind = 6) ∧ (r.len ≠ 0 ∨ (r.beat 0).en ≠ 0xF ∨ r.addr.extractLsb' 22 6 ≠ 0 ∨
       r.addr.extractLsb' 0 2 ≠ 0)) ∨
     (r.kind = 5 ∧ (r.addr.extractLsb' 18 4).toNat ∉ [1, 2, 3, 4]) ∨
     (r.kind = 6 ∧ (r.addr.extractLsb' 18 4).toNat ∉ [9, 10, 11]))) ∧
  (∀ (s : State) (p : PortId) (raw : RawCycle), malformed raw = true → s.free p → s.settled →
    (raw.kind = 1 ∨ raw.kind = 3 ∨ raw.kind = 5 →
      exec (.malformedCycle p raw) s = .next ((s.flagged p .refused []).answerBeats p raw.kind raw.addr
        (List.replicate (2 ^ raw.len.toNat) ⟨.error, some (0, wordParity 0)⟩))) ∧
    (raw.kind = 2 ∨ raw.kind = 4 ∨ raw.kind = 6 → 2 ^ raw.len.toNat ≤ raw.beats.length →
      exec (.malformedCycle p raw) s = .next (s.flagged p .refused [⟨.error, none⟩])) ∧
    (raw.kind = 7 → exec (.malformedCycle p raw) s = .next (s.flagged p .refused [⟨.error, none⟩]))) ∧
  ∀ (a : Addr) (n : Nat), legalBurst a n = true ↔ n ∈ [1, 2, 4, 8] ∧ a.toNat % (4 * n) = 0

/-- A pair is broken by every cycle of its port but the ending LOCK-WRITE, a write breaking it when its last beat has
come: REFUSED is set, pair lock and reservation go, and the cycle goes on as if no pair had been open. That the arbiter
decides at the break, before the cycle goes on, is the model's choice (log entry 7, DEDUCED). -/
def Obligations.OtherCyclesBreakThePair : Prop :=
  ∀ (s t : State) (p : PortId) (l : Line), s.takesCycle p → (s.port p).pair = some l → s.heldMatch →
    t = (s.setPort p
      { s.port p with pair := none, flags := (s.port p).flags ||| 4, answers := [] }).settle →
    (∀ arg, exec (.markOpen p arg) s = exec (.markOpen p arg) t ∧
      exec (.markClose p arg) s = exec (.markClose p arg) t ∧
      exec (.markStatus p arg) s = exec (.markStatus p arg) t ∧
      exec (.markGetCfg p arg) s = exec (.markGetCfg p arg) t) ∧
    (∀ arg data par, exec (.markDrop p arg data par) s = exec (.markDrop p arg data par) t ∧
      exec (.markRecAddr p arg data par) s = exec (.markRecAddr p arg data par) t ∧
      exec (.setCfgUndefinedItem p arg data par) s = exec (.setCfgUndefinedItem p arg data par) t) ∧
    (∀ k c data par, exec (.setCfgRegion p k data par) s = exec (.setCfgRegion p k data par) t ∧
      exec (.setCfgLifetime p c data par) s = exec (.setCfgLifetime p c data par) t ∧
      exec (.setCfgPairing p data par) s = exec (.setCfgPairing p data par) t ∧
      exec (.setCfgSlotCaps p data par) s = exec (.setCfgSlotCaps p data par) t ∧
      exec (.setCfgEscalation p data par) s = exec (.setCfgEscalation p data par) t ∧
      exec (.setCfgTickSource p data par) s = exec (.setCfgTickSource p data par) t ∧
      exec (.setCfgFaultMasks p data par) s = exec (.setCfgFaultMasks p data par) t) ∧
    (∀ a ens, exec (.memRead p a ens) s = exec (.memRead p a ens) t) ∧
    (∀ a n bs, 2 ^ n.toNat ≤ bs.length → exec (.memWrite p a ⟨n, bs⟩) s = exec (.memWrite p a ⟨n, bs⟩) t) ∧
    (∀ a en, exec (.lockRead p a en) s = exec (.lockRead p a en) t) ∧
    (∀ a b, lineOf a ≠ l ∨ legalBurst a 1 = false → exec (.lockWrite p a b) s = exec (.lockWrite p a b) t) ∧
    (∀ raw, malformed raw →
      (raw.kind = 2 ∨ raw.kind = 4 ∨ raw.kind = 6 → 2 ^ raw.len.toNat ≤ raw.beats.length) →
      exec (.malformedCycle p raw) s = exec (.malformedCycle p raw) t)

/-! ### Group cycles -/

/-- The counting of a memory cycle: taken in OPEN it raises the group cycle count, and in CYCLES mode the lifetime
counter, each up to 65535; the increment that reaches a limit of the lifetime counter is an expiry; in any other state
nothing counts. The expiry is a TIMEOUT abort request after the cycle. -/
def Obligations.GroupCyclesAreCounted : Prop :=
  (∀ (s : State) (p : PortId) (c : CtxId) (x : Context), s.serving p = c → s.ctx c = x →
    (x.state ≠ .opened → s.counted p = s ∧ s.countExpires p = false) ∧
    (x.state = .opened → (s.lifetimes.get c).mode = .time →
      s.counted p = s.setCtx c { x with cycles := min 65535 (x.cycles + 1) } ∧ s.countExpires p = false) ∧
    (x.state = .opened → (s.lifetimes.get c).mode = .cycles →
      s.counted p = s.setCtx c
        { x with cycles := min 65535 (x.cycles + 1), lifetime := min 65535 (x.lifetime + 1) } ∧
      (s.countExpires p = true ↔ (s.lifetimes.get c).limit ≠ 0 ∧
        min 65535 (x.lifetime + 1) = (s.lifetimes.get c).limit.toNat))) ∧
  ∀ (s : State) (c : CtxId) (expired : Bool),
    s.expire c expired = if expired = true then s.abort c .timeout none none else s

/-- A group cycle to a locked line is answered RETRY before its kind is looked at. Not locked, a PASS read goes to
memory and joins nothing, a PASS write goes to memory with escape and aborts with UNTRACKED without it, a BLOCKED cycle
is answered ERROR and aborts with BLOCKED. Each has been counted, and an expiry follows it. A line is locked for a port
by a COMMITTING context, by another port's pair or by another port's write in flight. A read sent to memory: its cycle
in progress with its group, and its request. (How ERROR beats are paced is the model's choice, log entry 5; the number
that tells the read's group from the next of its context is the model's own, log entry 10, DESIGN CHOICE.) -/
def Obligations.GroupCyclesNotTracked : Prop :=
  (∀ (s : State) (p : PortId) (a : Addr) (ens : List Lanes) (bs : List WriteBeat) (c : CtxId), s.free p →
    s.serving p = c → (s.ctx c).state = .opened → s.lockedFor p (lineOf a) →
    (legalBurst a ens.length → exec (.memRead p a ens) s =
      .next ((((s.answered p []).counted p).respond p [⟨.retry, none⟩]).expire c (s.countExpires p)).settle) ∧
    (legalBurst a bs.length → writeGood bs → exec (.memWrite p a ⟨lenCode bs.length, bs⟩) s =
      .next ((((s.answered p []).counted p).respond p [⟨.retry, none⟩]).expire c (s.countExpires p)).settle)) ∧
  (∀ (s t : State) (p : PortId) (a : Addr) (ens : List Lanes) (bs : List WriteBeat) (c : CtxId), s.free p →
    s.serving p = c → (s.ctx c).state = .opened → s.lockedFor p (lineOf a) = false →
    legalBurst a ens.length → legalBurst a bs.length → writeGood bs → t = (s.answered p []).counted p →
    (s.kindOf (lineOf a) = .pass → exec (.memRead p a ens) s =
      .next ((t.sendRead p 1 a (ens.map fun e => ⟨e, 0, 0, false⟩) (some c)).expire c (s.countExpires p)).settle) ∧
    (s.kindOf (lineOf a) = .pass → (s.ctx c).escape = true → exec (.memWrite p a ⟨lenCode bs.length, bs⟩) s =
      .next ((t.sendWrite p 2 a bs).expire c (s.countExpires p)).settle) ∧
    (s.kindOf (lineOf a) = .pass → (s.ctx c).escape = false → exec (.memWrite p a ⟨lenCode bs.length, bs⟩) s =
      .next ((t.takeAbort c .untracked (some a) none).respond p [⟨.done, none⟩]).settle) ∧
    (s.kindOf (lineOf a) = .blocked → exec (.memRead p a ens) s =
      .next ((t.takeAbort c .blocked (some a) none).answerBeats p 1 a
        (List.replicate ens.length ⟨.error, some (0, wordParity 0)⟩)).settle) ∧
    (s.kindOf (lineOf a) = .blocked → exec (.memWrite p a ⟨lenCode bs.length, bs⟩) s =
      .next ((t.takeAbort c .blocked (some a) none).respond p [⟨.error, none⟩]).settle)) ∧
  (∀ (s : State) (l : Line), (s.commitLocked l = true ↔ ∃ c, (s.ctx c).state = .committing ∧ l ∈ s.writes c) ∧
    ∀ p, s.lockedFor p l = true ↔
      s.commitLocked l = true ∨ (∃ q, q ≠ p ∧ (s.port q).pair = some l) ∨ ∃ q, q ≠ p ∧ (q, l) ∈ s.inFlight) ∧
  ∀ (s : State) (p : PortId) (k : BitVec 3) (a : Addr) (rs : List ReadBeat) (g : Option CtxId),
    s.sendRead p k a rs g =
      { s with
        ports := s.ports.set p
          { s.port p with
            cycle := some ⟨k, a, lenCode rs.length, .reading rs (g.map fun c => ⟨c, (s.ctx c).number⟩)⟩ }
        reqs := s.reqs.set p (some ⟨⟨false, a, rs.map fun r => ⟨r.en, 0⟩⟩, false⟩) }

/-- A group read of a TRACKED line of the group's footprint that is not locked. Not staged by the group, it goes to
memory. Staged: CAPACITY when the line would be a 25th read line; a staged byte it wants that fails its stored parity
aborts with MEMERR, and the bad beats are to be answered ERROR; otherwise the line joins the read set and the read is
answered from the slot when that holds every wanted byte, and goes to memory with the staged bytes to be merged. (How
the beats answered from the slot are paced is the model's choice, log entry 5; that the untracked reads after CAPACITY
and after a storage error name no group is the model's choice too, log entry 10, DEDUCED.) -/
def Obligations.GroupReadInTheFootprint : Prop :=
  ∀ (s t : State) (p : PortId) (a : Addr) (ens : List Lanes) (c : CtxId) (byte : Nat → Nat → Option StoredByte)
    (good : Nat → Bool) (staged : Nat → Lanes) (data : Nat → Word), s.free p → legalBurst a ens.length →
    s.serving p = c → (s.ctx c).state = .opened → s.kindOf (lineOf a) = .tracked →
    s.lockedFor p (lineOf a) = false → t = (s.answered p []).counted p →
    (s.slotOf c (lineOf a) = none → lineOf a ∈ s.reads c → exec (.memRead p a ens) s =
      .next ((t.sendRead p 1 a (ens.map fun e => ⟨e, 0, 0, false⟩) (some c)).expire c (s.countExpires p)).settle) ∧
    (∀ (i : SlotId) (b : SlotBody), s.slotOf c (lineOf a) = some i → s.slots[i] = some b →
      (∀ j n, byte j n = if (ens.getD j 0).getLsbD n then b.byteAt (a.toNat % 32 + 4 * j + n) else none) →
      (∀ j, good j = (List.range 4).all fun n => (byte j n).all fun x => byteParity x.val == x.par) →
      (∀ j n, n < 4 → (staged j).getLsbD n = (byte j n).isSome ∧
        laneByte (data j) n = (byte j n).elim 0 StoredByte.val) →
      (lineOf a ∉ s.reads c → 24 ≤ (s.reads c).length → exec (.memRead p a ens) s =
        .next (((t.takeAbort c .capacity (some a) none).sendRead p 1 a (ens.map fun e => ⟨e, 0, 0, false⟩)
          none)).settle) ∧
      (∀ u : State, (lineOf a ∈ s.reads c ∧ u = t ∨
          lineOf a ∉ s.reads c ∧ (s.reads c).length < 24 ∧ u = t.setReads c (s.reads c ++ [lineOf a])) →
        ((∃ k < ens.length, good k = false ∧ (∀ j < k, good j) ∧ exec (.memRead p a ens) s =
          .next ((u.takeAbort c .memerr (some (a + BitVec.ofNat 28 (4 * k))) none).sendRead p 1 a
            (ens.mapIdx fun j e => ⟨e, 0, 0, !good j⟩) none).settle) ∨
        (∀ k < ens.length, good k) ∧
        ((∀ k < ens.length, staged k = ens.getD k 0) → exec (.memRead p a ens) s =
          .next ((u.answerBeats p 1 a ((List.range ens.length).map fun j => .word (data j))).expire c
            (s.countExpires p)).settle) ∧
        (¬ (∀ k < ens.length, staged k = ens.getD k 0) → exec (.memRead p a ens) s =
          .next ((u.sendRead p 1 a (ens.mapIdx fun j e => ⟨e, staged j, data j, false⟩) (some c)).expire c
            (s.countExpires p)).settle))))

/-- A group read of a TRACKED line that is not locked and not in the footprint, in its order: BOUNDS at 8 lines of a
bounded group, CAPACITY at 24 read lines, a contest with the group that has staged the line, and joining the read set.
In every case the read goes to memory. The footprint: the read set and the lines of the group's slots, a line of both
counting once; the holders of a line are the OPEN contexts whose footprint holds it. -/
def Obligations.GroupReadOfANewLine : Prop :=
  (∀ (s t : State) (p : PortId) (a : Addr) (ens : List Lanes) (c : CtxId) (rivals : List CtxId)
    (go : State → Host.Outcome State Fault Refusal), s.free p →
    legalBurst a ens.length → s.serving p = c → (s.ctx c).state = .opened → s.kindOf (lineOf a) = .tracked →
    s.lockedFor p (lineOf a) = false → s.inFootprint c (lineOf a) = false → t = (s.answered p []).counted p →
    rivals = four.filter (fun h => h ≠ c ∧ (s.ctx h).state = .opened ∧ lineOf a ∈ s.writes h) →
    (∀ u, go u = .next ((u.sendRead p 1 a (ens.map fun e => ⟨e, 0, 0, false⟩) (some c)).expire c
      (s.countExpires p)).settle) →
    ((s.ctx c).bounded = true → 8 ≤ s.footprintSize c →
      exec (.memRead p a ens) s = go (t.takeAbort c .bounds (some a) none)) ∧
    (¬ ((s.ctx c).bounded = true ∧ 8 ≤ s.footprintSize c) → 24 ≤ (s.reads c).length →
      exec (.memRead p a ens) s = go (t.takeAbort c .capacity (some a) none)) ∧
    (¬ ((s.ctx c).bounded = true ∧ 8 ≤ s.footprintSize c) → (s.reads c).length < 24 →
      (rivals = [] → exec (.memRead p a ens) s = go (t.setReads c (s.reads c ++ [lineOf a]))) ∧
      (rivals ≠ [] → (∀ h ∈ rivals, s.beats c h) → exec (.memRead p a ens) s =
        go ((t.abortAll rivals .conflict (some a) (some (.ctx c))).setReads c (s.reads c ++ [lineOf a]))) ∧
      (∀ h ∈ rivals, s.beats c h = false →
        exec (.memRead p a ens) s = go (t.takeAbort c .conflict (some a) ((s.contestWinner rivals).map .ctx))))) ∧
  ∀ (s : State) (c : CtxId),
    (∀ l, (l ∈ s.writes c ↔ ∃ (i : SlotId) (b : SlotBody), i ∈ s.order c ∧ s.slots[i] = some b ∧ b.line = l) ∧
      (s.inFootprint c l = true ↔ l ∈ s.reads c ∨ l ∈ s.writes c) ∧
      (c ∈ s.holders l ↔ (s.ctx c).state = .opened ∧ s.inFootprint c l = true)) ∧
    ((s.reads c).Nodup → (s.writes c).Nodup →
      s.footprintSize c = ((s.reads c).toFinset ∪ (s.writes c).toFinset).card)

/-- A group write to a TRACKED line that is not locked: merged into the group's own slot; else BOUNDS for a new line of
a full bounded group; else a contest with every OPEN group that holds the line, lost by the writer alone or won with all
others aborted before it is staged. Who beats whom: a HELD token first, else the age list; RESERVED gives nothing. The
winner named to a loser is the holder that owns the HELD token, else the holder nearest the head of the age list. That
BOUNDS meets a write that enables no byte too is the model's choice (log entry 11, DEDUCED). -/
def Obligations.GroupWriteToATrackedLine : Prop :=
  (∀ (s t : State) (p : PortId) (a : Addr) (bs : List WriteBeat) (c : CtxId) (rivals : List CtxId)
    (done : State → Host.Outcome State Fault Refusal), s.free p → legalBurst a bs.length → writeGood bs →
    s.serving p = c → (s.ctx c).state = .opened → s.kindOf (lineOf a) = .tracked →
    s.lockedFor p (lineOf a) = false → t = (s.answered p []).counted p →
    rivals = four.filter (fun h => h ≠ c ∧ (s.ctx h).state = .opened ∧ s.inFootprint h (lineOf a)) →
    (∀ u, done u = .next ((u.respond p [⟨.done, none⟩]).expire c (s.countExpires p)).settle) →
    (lineOf a ∈ s.writes c → exec (.memWrite p a ⟨lenCode bs.length, bs⟩) s = done (t.stage c a bs)) ∧
    (s.inFootprint c (lineOf a) = false → (s.ctx c).bounded = true → 8 ≤ s.footprintSize c →
      exec (.memWrite p a ⟨lenCode bs.length, bs⟩) s = done (t.takeAbort c .bounds (some a) none)) ∧
    (lineOf a ∉ s.writes c → ¬ (s.inFootprint c (lineOf a) = false ∧ (s.ctx c).bounded = true ∧
        8 ≤ s.footprintSize c) →
      (rivals = [] → exec (.memWrite p a ⟨lenCode bs.length, bs⟩) s = done (t.stage c a bs)) ∧
      (rivals ≠ [] → (∀ h ∈ rivals, s.beats c h) → exec (.memWrite p a ⟨lenCode bs.length, bs⟩) s =
        done ((t.abortAll rivals .conflict (some a) (some (.ctx c))).stage c a bs)) ∧
      (∀ h ∈ rivals, s.beats c h = false → exec (.memWrite p a ⟨lenCode bs.length, bs⟩) s =
        done (t.takeAbort c .conflict (some a) ((s.contestWinner rivals).map .ctx))))) ∧
  (∀ (s : State) (x h : CtxId), x ≠ h →
    (s.token = .held x → s.beats x h = true ∧ s.beats h x = false) ∧
    ((∀ c, s.token = .held c → c ≠ x ∧ c ≠ h) → ∀ l m r : List CtxId, s.ages = l ++ x :: m ++ h :: r → h ∉ l →
      h ∉ m → x ∉ l → s.beats x h = true ∧ s.beats h x = false)) ∧
  (∀ (s : State) (hs : List CtxId),
    (∀ h ∈ hs, s.token = .held h → s.contestWinner hs = some h) ∧
    ((∀ h ∈ hs, s.token ≠ .held h) → ∀ (h : CtxId) (l r : List CtxId), s.ages = l ++ h :: r → h ∈ hs →
      (∀ x ∈ l, x ∉ hs) → s.contestWinner hs = some h))

/-- Taking a group write into the store: nothing for a write that enables no byte; merged into the group's slot for the
line; else the lowest FREE slot, below the cap; else CAPACITY with the write's address as cause. What it leaves in a
slot: byte k holds the enabled lane of the beat that covers it, with its parity bit, and is unchanged where no beat
enables it. -/
def Obligations.StagingAndItsBytes : Prop :=
  (∀ (s : State) (c : CtxId) (a : Addr) (bs : List WriteBeat),
    ((∀ b ∈ bs, b.en = 0) → s.stage c a bs = s) ∧
    (¬ (∀ b ∈ bs, b.en = 0) →
      (∀ (i : SlotId) (b : SlotBody), s.slotOf c (lineOf a) = some i → s.slots[i] = some b →
        s.stage c a bs = s.setSlot i (some { b with bytes := mergeBytes a bs b.bytes })) ∧
      (∀ i : SlotId, s.slotOf c (lineOf a) = none → (s.order c).length < s.caps.get c → s.slots[i] = none →
        (∀ j : SlotId, j < i → s.slots[j] ≠ none) → s.stage c a bs =
          (s.setSlot i (some ⟨false, c, lineOf a, mergeBytes a bs (Vector.replicate 32 none)⟩)).setOrder c
            (s.order c ++ [i])) ∧
      (s.slotOf c (lineOf a) = none → (s.caps.get c ≤ (s.order c).length ∨ ∀ j : SlotId, s.slots[j] ≠ none) →
        s.stage c a bs = s.abort c .capacity (some a) none))) ∧
  (∀ (a : Addr) (bs : List WriteBeat) (old : Vector (Option StoredByte) 32), legalBurst a bs.length →
    (∀ (i n : Nat) (b : WriteBeat) (h : a.toNat % 32 + 4 * i + n < 32), bs[i]? = some b → n < 4 →
      (mergeBytes a bs old)[a.toNat % 32 + 4 * i + n] =
        if b.en.getLsbD n then some ⟨laneByte b.data n, b.par.getLsbD n⟩
        else old[a.toNat % 32 + 4 * i + n]) ∧
    (∀ k : Fin 32, (k.val < a.toNat % 32 ∨ a.toNat % 32 + 4 * bs.length ≤ k.val) →
      (mergeBytes a bs old)[k] = old[k]))

/-! ### Aborts, escalation, time, quiesce -/

/-- A request that finds its context not OPEN has no effect of any kind. The requests that one claim raises on several
contexts are taken each once, in some order (which one, the free value of log entry 8 picks). An abort of an OPEN
context, block by block: where it goes by record address and release flag, what it keeps, the age list, its sets and
slots, every other context's, the record job with its image, NOTICE, and the Contention Unit's share, which is the abort
notice. Nothing else changes. -/
def Obligations.AbortEndsTheGroup : Prop :=
  (∀ (s : State) (c : CtxId) (code : AbortCode) (cause : Option Addr) (party : Option Party),
    ((s.ctx c).state ≠ .opened → s.abort c code cause party = s) ∧
    ((s.ctx c).state = .opened → s.abort c code cause party = s.takeAbort c code cause party)) ∧
  (∀ (s : State) (cs : List CtxId) (code : AbortCode) (cause : Option Addr) (party : Option Party),
    ∃ (order : List CtxId) (n : Nat), order.Perm cs ∧ s.abortAll cs code cause party =
      order.foldl (fun (u : State) c => u.abort c code cause party) { s with freeCount := n }) ∧
  (∀ (s t : State) (c : CtxId) (code : AbortCode) (cause : Option Addr) (party : Option Party) (x : Context),
    s.ctx c = x → x.state = .opened → t = s.abort c code cause party →
    t = { s with
      ctxs := t.ctxs, ages := t.ages, readSets := t.readSets, slots := t.slots, orders := t.orders, jobs := t.jobs
      ports := t.ports, counters := (s.abortNotice c code x.bounded).counters
      prioQueue := (s.abortNotice c code x.bounded).prioQueue, token := (s.abortNotice c code x.bounded).token
      window := (s.abortNotice c code x.bounded).window } ∧
    t.ages = s.ages.filter (· ≠ c) ∧ t.reads c = [] ∧ t.order c = [] ∧
    (∀ d, d ≠ c → t.ctx d = s.ctx d ∧ t.reads d = s.reads d ∧ t.order d = s.order d) ∧
    (∀ i : SlotId, t.slots[i] = if i ∈ s.order c then none else s.slots[i]) ∧
    (∀ a, x.recAddr = some a → t.ctx c = { x with state := .aborting, lastCode := some code } ∧
      t.jobs = s.jobs ++ [⟨c, .record a
        { code := code, depth := x.depth, ctx := c, bounded := x.bounded, notice := x.notice, cause := cause
          party := party, lifetime := x.lifetime, slots := (s.order c).length, reads := (s.reads c).length
          cycles := x.cycles, counter := t.counters.get c, relation := s.relation c
          outerArg := x.outerArg }, .waiting⟩]) ∧
    (x.recAddr = none → t.jobs = s.jobs ∧
      (x.release = false → t.ctx c = { x with state := .doomed, lastCode := some code }) ∧
      (x.release = true → t.ctx c =
        { x with
          state := .idle, depth := 0, levels := [], escape := false, notice := 0, bounded := false
          recAddr := none, lastCode := some code, release := false, held := none })) ∧
    (∀ p, t.port p =
      { s.port p with
        flags := if s.serving p = c ∧ (x.notice = 0 ∨ x.notice = 1 ∧ code.cls ≠ 3 ∨ x.notice ≠ 0 ∧ code.cls = 1)
          then (s.port p).flags ||| 1 else (s.port p).flags }))

/-- An abort notice, whole: CONFLICT, INVADED and TIMEOUT of a bounded group raise the counter up to 15; a HELD token of
the context is freed; a counted abort with escalation on and the counter at the threshold queues a context that does not
own the token and is not queued yet; and a FREE token is granted to the queue's head, the timer set from W. -/
def Obligations.AbortNoticeCountsAndQueues : Prop :=
  ∀ (s t : State) (c : CtxId) (code : AbortCode) (b counting : Bool) (n : Nat) (token : Token) (queue : List CtxId),
    t = s.abortNotice c code b → s.escalationFormed →
    (counting = true ↔ b = true ∧ (code = .conflict ∨ code = .invaded ∨ code = .timeout)) →
    n = (if counting then min 15 (s.counters.get c + 1) else s.counters.get c) →
    token = (if s.token = .held c then .free else s.token) →
    queue = (if counting = true ∧ s.threshold ≠ 0 ∧ s.windowLen ≠ 0 ∧ s.threshold.toNat ≤ n ∧ token ≠ .reserved c ∧
      c ∉ s.prioQueue then s.prioQueue ++ [c] else s.prioQueue) →
    (token ≠ .free ∨ queue = [] → t =
      { s with
        counters := s.counters.set c n, token := token, prioQueue := queue
        window := if s.token = .held c then none else s.window }) ∧
    (∀ h r, token = .free → queue = h :: r → t =
      { s with
        counters := s.counters.set c n, token := .reserved h, prioQueue := r
        window := if s.windowLen = 255 then none else some s.windowLen.toNat })

/-- A tick at the window timer: nothing for a FREE token or an unlimited timer; it lowers a running timer, and the tick
that brings it to 0 frees the token and grants it to the queue's head, with the timer set from W. Nothing else changes:
neither counter nor queue nor group of the owner. -/
def Obligations.WindowTimerTicks : Prop :=
  ∀ s : State, s.escalationFormed →
    (s.token = .free ∨ s.window = none → s.windowTick = s) ∧
    (∀ n, s.token ≠ .free → s.window = some n → 1 < n →
      s.windowTick = { s with window := some (n - 1) }) ∧
    (s.token ≠ .free → s.window = some 1 →
      (s.prioQueue = [] → s.windowTick = { s with token := .free, window := none }) ∧
      (∀ h r, s.prioQueue = h :: r → s.windowTick =
        { s with
          token := .reserved h, prioQueue := r
          window := if s.windowLen = 255 then none else some s.windowLen.toNat }))

/-- A tick at which no context expires: each OPEN context in mode TIME counts it up to 65535, the window timer takes it,
and the divisor restarts or the pin's level is kept. Samples of the pin that are no rising edge, or come with another
source than 7, only become the last level. That TICK from the divisor ticks from every count, standing for the clocks
that remain, is the model's choice (log entry 9). In reset nothing counts. A tick at which contexts expire: after the
counting, their TIMEOUT aborts and the window timer's tick are taken, each once, in some order (the free value of log
entry 8 picks it). -/
def Obligations.TickCountsTime : Prop :=
  (∀ s : State,
    (s.rst = true → exec (.tick .divisor) s = .next s ∧ exec (.tick .pinHigh) s = .next s ∧
      exec .tickPinFall s = .next s) ∧
    (s.rst = false → exec .tickPinFall s = .next { s with tickLevel := false }) ∧
    (s.rst = false → s.settled → (s.tickSource ≠ 7 ∨ s.tickLevel = true) →
      exec (.tick .pinHigh) s = .next { s with tickLevel := true }) ∧
    (∀ t : State, s.rst = false → s.settled → t = { s with ctxs := t.ctxs } →
      (∀ c, t.ctx c = if (s.ctx c).state = .opened ∧ (s.lifetimes.get c).mode = .time then
        { s.ctx c with lifetime := min 65535 ((s.ctx c).lifetime + 1) } else s.ctx c) →
      (∀ c, (s.ctx c).state = .opened → (s.lifetimes.get c).mode = .time → (s.lifetimes.get c).limit ≠ 0 →
        min 65535 ((s.ctx c).lifetime + 1) ≠ (s.lifetimes.get c).limit.toNat) →
      (s.tickSource ≠ 7 → exec (.tick .divisor) s = .next ({ t with divisor := 0 } : State).windowTick) ∧
      (s.tickSource = 7 → s.tickLevel = false →
        exec (.tick .pinHigh) s = .next ({ t with tickLevel := true } : State).windowTick))) ∧
  (∀ (s t : State) (due : List CtxId), s.rst = false → t = { s with ctxs := t.ctxs } →
    (∀ c, t.ctx c = if (s.ctx c).state = .opened ∧ (s.lifetimes.get c).mode = .time then
      { s.ctx c with lifetime := min 65535 ((s.ctx c).lifetime + 1) } else s.ctx c) →
    due = four.filter (fun c => (s.ctx c).state = .opened ∧ (s.lifetimes.get c).mode = .time ∧
      (s.lifetimes.get c).limit ≠ 0 ∧ min 65535 ((s.ctx c).lifetime + 1) = (s.lifetimes.get c).limit.toNat) →
    (s.tickSource ≠ 7 → ∃ (items : List TickItem) (n : Nat), items.Perm (due.map TickItem.expiry ++ [.window]) ∧
      exec (.tick .divisor) s = .next ((items.foldl (fun (u : State) i => match i with
        | .expiry c => u.abort c .timeout
        | .window => u.windowTick) { t with divisor := 0, freeCount := n }).settle)) ∧
    (s.tickSource = 7 → s.tickLevel = false → ∃ (items : List TickItem) (n : Nat),
      items.Perm (due.map TickItem.expiry ++ [.window]) ∧
      exec (.tick .pinHigh) s = .next ((items.foldl (fun (u : State) i => match i with
        | .expiry c => u.abort c .timeout
        | .window => u.windowTick) { t with tickLevel := true, freeCount := n }).settle)))

/-- As commands of their own (log entry 6) the expiries act only when due: a lifetime counter of an OPEN context at its
limit aborts the group with TIMEOUT, and an owned token's timer at 0 frees the token and grants it onward. -/
def Obligations.ExpiriesWhenDue : Prop :=
  (∀ (s : State) (c : CtxId),
    ((s.ctx c).state = .opened → (s.lifetimes.get c).limit ≠ 0 →
      (s.ctx c).lifetime = (s.lifetimes.get c).limit.toNat →
      exec (.lifetimeExpiry c) s = .next (s.takeAbort c .timeout none none).settle) ∧
    ((s.ctx c).state ≠ .opened ∨ (s.lifetimes.get c).limit = 0 ∨
      (s.ctx c).lifetime ≠ (s.lifetimes.get c).limit.toNat → exec (.lifetimeExpiry c) s = .next s)) ∧
  (∀ s : State,
    (s.token = .free ∨ s.window ≠ some 0 → exec .windowExpiry s = .next s) ∧
    (s.token ≠ .free → s.window = some 0 → s.prioQueue = [] →
      exec .windowExpiry s = .next { s with token := .free, window := none }) ∧
    (∀ h r, s.token ≠ .free → s.window = some 0 → s.prioQueue = h :: r → s.threshold ≠ 0 → s.windowLen ≠ 0 →
      exec .windowExpiry s = .next
        { s with
          token := .reserved h, prioQueue := r
          window := if s.windowLen = 255 then none else some s.windowLen.toNat }))

/-- The negation of QREQ# returns the bridge to RUNNING. Its assertion moves a RUNNING bridge with no OPEN context to
DRAINING, or on to QUIESCED when nothing is left to drain; in DRAINING and QUIESCED it changes nothing but the line (the
model's choice, log entry 17, DEDUCED), and in reset it waits for the reset's end. In RUNNING every OPEN context is
aborted with QUIESCE, in some order, and no other by it; then none is OPEN, and the bridge is QUIESCED exactly when the
drain condition holds. -/
def Obligations.QuiesceRequest : Prop :=
  (∀ s : State,
    exec .qreqNegated s = .next { s with qreq := false, bridge := .running } ∧
    (s.rst = true → exec .qreqAsserted s = .next { s with qreq := true }) ∧
    (s.rst = false → s.settled → s.bridge ≠ .running → exec .qreqAsserted s = .next { s with qreq := true }) ∧
    (s.rst = false → s.settled → s.bridge = .running → (∀ c, (s.ctx c).state ≠ .opened) →
      exec .qreqAsserted s = .next
        { s with
          qreq := true
          bridge := if s.jobs = [] ∧ ∀ c, (s.ctx c).state = .idle ∨ (s.ctx c).state = .doomed then .quiesced
            else .draining })) ∧
  (∀ s : State, s.rst = false → s.bridge = .running →
    (∃ (order : List CtxId) (n : Nat),
      order.Perm (four.filter fun c => (s.ctx c).state = .opened) ∧ exec .qreqAsserted s =
        .next ((order.foldl (fun (u : State) c => u.abort c .quiesce none none)
          { s with qreq := true, bridge := .draining, freeCount := n }).drainTest.settle)) ∧
    (∃ t, exec .qreqAsserted s = .next t ∧
      (∀ c, (t.ctx c).state ≠ .opened ∧ (t.ctx c).lastCode =
        if (s.ctx c).state = .opened then some .quiesce else (s.ctx c).lastCode) ∧
      t.bridge = if t.jobs = [] ∧ ∀ c, (t.ctx c).state = .idle ∨ (t.ctx c).state = .doomed then .quiesced
        else .draining))

/-! ### The memory port, the Commit Engine, the storage -/

/-- Who wins a grant decision: the first closing request in search order, and with none standing the first eligible
request; the search runs M0, M1, M2, M3, E round the circle from the one after the last winner, and while lock
reservations stand only reserving ports are eligible. The winner's request leaves the standing requests, its burst is
out with no beat answered, and the pointer is the winner. A record burst on a commit-locked line is given up, its job
finishes with RECSKIP, and the next decision follows with the pointer at E; on any other line it first aborts every OPEN
context that holds the line with INVADED, in some order (AbortEndsTheGroup), party the record's context. That GRANT as a
command changes nothing on a BUSY bus or with no winner is the model's choice (log entry 6, DEDUCED). -/
def Obligations.GrantDecisionAndItsGrants : Prop :=
  ((∀ (s : State) (l order : List Requester), l = [.port 0, .port 1, .port 2, .port 3, .engine] →
    order = l.rotate (l.idxOf s.pointer + 1) → ∀ closing eligible : Requester → Prop,
    (∀ r, closing r ↔ ∃ p q, r = .port p ∧ s.reqs.get p = some q ∧ q.closing = true) →
    (∀ r, eligible r ↔
      (∃ p q, r = .port p ∧ s.reqs.get p = some q ∧ ((∀ o, (s.port o).pair = none) ∨ (s.port p).pair ≠ none)) ∨
      (∃ c w b rest, r = .engine ∧ s.jobs = ⟨c, w, .requesting b⟩ :: rest ∧ ∀ o, (s.port o).pair = none)) →
    (∀ r, s.winner = some r ↔ ∃ l₁ l₂, order = l₁ ++ r :: l₂ ∧
      (closing r ∧ (∀ x ∈ l₁, ¬ closing x) ∨ (∀ x, ¬ closing x) ∧ eligible r ∧ ∀ x ∈ l₁, ¬ eligible x))) ∧
  (∀ s : State,
    (s.bus ≠ none ∨ s.winner = none → exec .grant s = .next s) ∧
    (∀ (p : PortId) (q : Request), s.bus = none → s.winner = some (.port p) → s.reqs.get p = some q →
      exec .grant s = .next (((s.setReq p none).setPointer (.port p)).setBus
        (some ⟨.port p, q.burst, q.closing, 0, false, false⟩))) ∧
    (∀ (c : CtxId) (n f i : Nat) (b : Burst) (rest : List Job), s.bus = none → s.winner = some .engine →
      s.jobs = ⟨c, .commit n f i, .requesting b⟩ :: rest →
      exec .grant s = .next (((s.setPointer .engine).setJobs (⟨c, .commit n f i, .writing⟩ :: rest)).setBus
        (some ⟨.engine, b, false, 0, false, false⟩))))) ∧
  (∀ (s : State) (c : CtxId) (a : Addr) (m : Image) (b : Burst) (rest : List Job), s.bus = none →
    s.winner = some .engine → s.jobs = ⟨c, .record a m, .requesting b⟩ :: rest →
    (s.commitLocked (lineOf a) = true → exec .grant s =
      .next ((((s.setPointer .engine).setJobs rest).recordFinish c true false).engineRun rest).arbitrate) ∧
    (s.commitLocked (lineOf a) = false → exec .grant s =
      .next ((((s.setPointer .engine).setJobs (⟨c, .record a m, .writing⟩ :: rest)).setBus
        (some ⟨.engine, b, false, 0, false, false⟩)).abortAll (s.holders (lineOf a)) .invaded (some a)
          (some (.ctx c)))))

/-- JOB_START, or the start in a claim's own step, of a waiting head of the queue: a commit job requests the burst of
its next slot, skips a slot with a storage error as failed, and finishes after its last; a record job requests its eight
beats, or finishes with RECSKIP on a BLOCKED line. A grant decision follows. What follows a claim in its own step is
what JOB_START does, and GRANT is the grant decision alone. That JOB_START as a command leaves a head that has started,
and then only takes the grant decision, is the model's choice (log entry 6, DEDUCED). -/
def Obligations.WaitingJobStarts : Prop :=
  (∀ (s : State) (c : CtxId) (w : JobWork) (rest : List Job),
    ((∀ j ∈ s.jobs.head?, j.phase ≠ .waiting) → exec .jobStart s = .next s.arbitrate) ∧
    (s.jobs = ⟨c, w, .waiting⟩ :: rest →
      (∀ (n f i : Nat) (k : SlotId) (b : SlotBody), w = .commit n f i → (s.order c)[i]? = some k →
        s.slots[k] = some b →
        ((∀ (o : Nat) (x : StoredByte), b.byteAt o = some x → byteParity x.val = x.par) → exec .jobStart s =
          .next (s.setJobs (⟨c, .commit n f i, .requesting b.commitBurst⟩ :: rest)).arbitrate) ∧
        ((∃ (o : Nat) (x : StoredByte), b.byteAt o = some x ∧ byteParity x.val ≠ x.par) → exec .jobStart s =
          exec .jobStart (s.setJobs (⟨c, .commit (n - 1) (f + 1) (i + 1), .waiting⟩ :: rest)))) ∧
      (∀ n f i : Nat, w = .commit n f i → (s.order c).length ≤ i → exec .jobStart s =
        .next (((s.setJobs rest).commitFinish c f).engineRun rest).arbitrate) ∧
      (∀ (a : Addr) (m : Image), w = .record a m →
        (s.kindOf (lineOf a) ≠ .blocked → exec .jobStart s =
          .next (s.setJobs (⟨c, w, .requesting ⟨true, a, (recordWords m).map fun v => ⟨0xF, v⟩⟩⟩ ::
            rest)).arbitrate) ∧
        (s.kindOf (lineOf a) = .blocked → exec .jobStart s =
          .next (((s.setJobs rest).recordFinish c true false).engineRun rest).arbitrate)))) ∧
  ∀ s : State, exec .jobStart s = .next s.settle ∧ exec .grant s = .next s.arbitrate ∧
    (s.jobs = [] → s.engineRun s.jobs = s) ∧
    (∀ j, s.jobs.head? = some j → j.phase = .waiting → exec .jobStart s = .next (s.engineRun s.jobs).arbitrate)

/-- Commit finish: slots FREE, context IDLE with its kept fields, TORN and MEMERR on every served port when lines
failed, the held CLOSE answered COMMITTED or TORN with the count. Record finish: RECSKIP and MEMERR on every served
port, the held CLOSE answered ABORTED, the context IDLE when a CLOSE was held or its release flag set, else DOOMED.
Either way the drain condition is tested, and nothing else changes. -/
def Obligations.JobFinishes : Prop :=
  ∀ (s : State) (c : CtxId) (x : Context) (bridge : State → Bridge), s.ctx c = x →
    (∀ t, bridge t = if s.bridge = .draining ∧ s.jobs = [] ∧
      ∀ d, (t.ctx d).state = .idle ∨ (t.ctx d).state = .doomed then .quiesced else s.bridge) →
    (∀ (failed : Nat) (t : State), t = s.commitFinish c failed →
      t = { s with
        ctxs := s.ctxs.set c x.toIdle, slots := t.slots, orders := s.orders.set c [], ports := t.ports
        bridge := bridge t } ∧
      (∀ k : SlotId, t.slots[k] = if k ∈ s.order c then none else s.slots[k]) ∧
      (∀ q, t.port q =
        { s.port q with
          flags := if failed ≠ 0 ∧ s.serving q = c then (s.port q).flags ||| 0x30 else (s.port q).flags
          cycle := if x.held = some q then none else (s.port q).cycle
          answers := (s.port q).answers ++ if x.held = some q then
            [.word (if failed = 0 then 0x00000004 else field 5 0 ||| field failed 16)] else [] })) ∧
    (∀ (skipped memErr : Bool) (t : State), t = s.recordFinish c skipped memErr →
      t = { s with
        ctxs := s.ctxs.set c (if x.held ≠ none ∨ x.release = true then x.toIdle else { x with state := .doomed })
        ports := t.ports, bridge := bridge t } ∧
      (∀ q, t.port q =
        { s.port q with
          flags := if s.serving q = c then
            (s.port q).flags ||| (if skipped then 0x80 else 0) ||| (if memErr then 0x10 else 0)
            else (s.port q).flags
          cycle := if x.held = some q then none else (s.port q).cycle
          answers := (s.port q).answers ++ if x.held = some q then
            [.word (field 6 0 ||| field x.depth 4 ||| bitField (x.lastCode.any AbortCode.transient) 7 |||
              field (x.lastCode.elim 0 fun a => a.num.toNat) 8)] else [] })) ∧
    x.toIdle = { x with
      state := .idle, depth := 0, levels := [], escape := false, notice := 0, bounded := false
      recAddr := none, release := false, held := none }

/-- Memory answers a beat of a port's read: DONE with memory's bytes, or the staged ones where they stand, in the
enabled lanes; ERROR for a memory error or a staged byte that failed. The first bad beat of a group's read aborts that
group with MEMERR while it is OPEN; otherwise, its group having left OPEN even if its context has another group OPEN by
then, it sets MEMERR on the port. After the last beat the bus is FREE and the cycle over. (A group is told from the next
of its context by its number, the model's own; that the untracked reads after CAPACITY and after a storage error name no
group is the model's choice: log entry 10, DEDUCED.) -/
def Obligations.ReadBeatIsAnswered : Prop :=
  ∀ (s u : State) (p : PortId) (b : BusBurst) (a : Addr) (k : BitVec 3) (n : BitVec 2)
    (rs : List ReadBeat) (g : Option GroupRef) (r : ReadBeat) (beat : BurstBeat) (x bad : Bool) (d : Word)
    (par : Lanes), s.bus = some b → b.owner = .port p → b.orphan = false → b.burst.write = false →
    (s.port p).cycle = some ⟨k, a, n, .reading rs g⟩ →
    rs[b.answered]? = some r → b.burst.beats[b.answered]? = some beat →
    bad = (x || !beatGood beat.en d par) →
    (bad = false ∧ r.failed = false ∧ u = s.respond p [.word (laneWord fun n => if r.en.getLsbD n then
        if r.staged.getLsbD n && !b.bad then laneByte r.data n else laneByte d n else 0)] ∨
      bad = false ∧ r.failed = true ∧ u = s.respond p [⟨.error, some (0, wordParity 0)⟩] ∨
      bad = true ∧ b.bad = true ∧ u = s.respond p [⟨.error, some (0, wordParity 0)⟩] ∨
      bad = true ∧ b.bad = false ∧ (∀ c m, g = some ⟨c, m⟩ → (s.ctx c).state ≠ .opened ∨ (s.ctx c).number ≠ m) ∧
        u = (s.respond p [⟨.error, some (0, wordParity 0)⟩]).setFlag p .memerr ∨
      bad = true ∧ b.bad = false ∧ (∃ c m, g = some ⟨c, m⟩ ∧ (s.ctx c).state = .opened ∧
        (s.ctx c).number = m ∧
        u = (s.respond p [⟨.error, some (0, wordParity 0)⟩]).takeAbort c .memerr
          (some (a + BitVec.ofNat 28 (4 * b.answered))) none)) →
    (b.answered + 1 < b.burst.beats.length → exec (.memoryBeatAnswer x d par) s =
      .next (u.setBus (some { b with answered := b.answered + 1, bad := b.bad || bad })).settle) ∧
    (b.burst.beats.length ≤ b.answered + 1 → exec (.memoryBeatAnswer x d par) s =
      .next ((u.setBus none).setCycle p none).settle)

/-- Memory answers a beat of a port's write, and of a burst that a port reset left without a master: beats are only
counted until the last; then the bus is FREE, the write is in flight no more, and the write is answered DONE, or ERROR
with MEMERR when a beat was bad; an orphan is answered to nobody. With the bus FREE there is no beat to answer. -/
def Obligations.WriteBurstOfAPortCompletes : Prop :=
  ∀ (s : State) (x : Bool) (d : Word) (par : Lanes),
    (s.bus = none → s.settled → exec (.memoryBeatAnswer x d par) s = .next s) ∧
    (∀ (p : PortId) (b : BusBurst) (u : State), s.bus = some b → b.owner = .port p →
      u = (if b.burst.write = true ∧ b.closing = false then
        (s.setBus none).setInFlight (s.inFlight.erase (p, lineOf b.burst.addr)) else s.setBus none) →
      (b.orphan = false → b.burst.write = true →
        (b.answered + 1 < b.burst.beats.length → s.settled → exec (.memoryBeatAnswer x d par) s =
          .next (s.setBus (some { b with answered := b.answered + 1, bad := b.bad || x }))) ∧
        (b.burst.beats.length ≤ b.answered + 1 → exec (.memoryBeatAnswer x d par) s =
          .next ((if (b.bad || x) = true then (u.setFlag p .memerr).respond p [⟨.error, none⟩]
            else u.respond p [⟨.done, none⟩]).setCycle p none).settle)) ∧
      (b.orphan = true →
        (b.answered + 1 < b.burst.beats.length → s.settled → ∃ bad, exec (.memoryBeatAnswer x d par) s =
          .next (s.setBus (some { b with answered := b.answered + 1, bad := bad }))) ∧
        (b.burst.beats.length ≤ b.answered + 1 → exec (.memoryBeatAnswer x d par) s = .next u.settle)))

/-- Memory answers a beat of an Engine burst: beats are only counted until the last; then the bus is FREE and the line's
turn ends, counting as failed when a beat was bad, with the next line's turn or commit finish following; or the record
job finishes, with MEMERR and RECSKIP when a beat was bad. The next job starts and a grant decision follows. -/
def Obligations.EngineBurstCompletes : Prop :=
  ∀ (s : State) (x bad : Bool) (d : Word) (par : Lanes) (b : BusBurst) (c : CtxId) (rest : List Job),
    s.bus = some b → b.owner = .engine → b.burst.write = true → bad = (b.bad || x) →
    (b.answered + 1 < b.burst.beats.length → s.settled → exec (.memoryBeatAnswer x d par) s =
      .next (s.setBus (some { b with answered := b.answered + 1, bad := bad }))) ∧
    (b.burst.beats.length ≤ b.answered + 1 →
      (∀ n f i : Nat, s.jobs = ⟨c, .commit n f i, .writing⟩ :: rest → exec (.memoryBeatAnswer x d par) s =
        .next ((s.setBus none).setJobs
          (⟨c, .commit (n - 1) (if bad then f + 1 else f) (i + 1), .waiting⟩ :: rest)).settle) ∧
      (∀ (a : Addr) (m : Image), s.jobs = ⟨c, .record a m, .writing⟩ :: rest → s.tailWaits →
        exec (.memoryBeatAnswer x d par) s =
          .next (((s.setBus none).setJobs rest).recordFinish c bad bad).settle))

/-- A fault of the storage changes a written byte of a slot, or its stored parity bit, and nothing else; a byte whose
mask bit is clear is used by nothing (log entry 19), and a FREE slot has none. -/
def Obligations.StorageFaultChangesAByte : Prop :=
  ∀ (s : State) (i : SlotId) (o : Fin 32) (flip : Byte) (flipPar : Bool),
    (∀ (b : SlotBody) (y : StoredByte), s.slots[i] = some b → b.bytes[o] = some y →
      exec (.storageFault i o flip flipPar) s = .next (s.setSlot i
        (some { b with bytes := b.bytes.set o (some ⟨y.val ^^^ flip, y.par ^^ flipPar⟩) }))) ∧
    (s.slots[i] = none → exec (.storageFault i o flip flipPar) s = .next s) ∧
    (∀ b : SlotBody, s.slots[i] = some b → b.bytes[o] = none →
      exec (.storageFault i o flip flipPar) s = .next s)

/-- The burst of a slot: the shortest aligned block of 1, 2, 4 or 8 words that holds its first and last written byte;
each beat enables and carries exactly the written bytes of its word, 00h elsewhere; it is a legal burst in the line. -/
def Obligations.CommitBurstCoversTheWrittenWords : Prop :=
  ∀ (b : SlotBody) (lo hi : Nat) (t : Burst), (b.byteAt lo).isSome → (b.byteAt hi).isSome →
    (∀ k, (b.byteAt k).isSome → lo ≤ k ∧ k ≤ hi) → t = b.commitBurst →
    ∃ n w : Nat, n ∈ [1, 2, 4, 8] ∧ lo / 4 / n = hi / 4 / n ∧
      (∀ m ∈ [1, 2, 4, 8], m < n → lo / 4 / m ≠ hi / 4 / m) ∧ w = lo / 4 / n * n ∧
      t.write = true ∧ t.addr.toNat = b.line.toNat * 32 + w * 4 ∧ t.beats.length = n ∧
      legalBurst t.addr n = true ∧ lineOf t.addr = b.line ∧
      (∀ (i : Nat) (x : BurstBeat), t.beats[i]? = some x → ∀ k < 4,
        x.en.getLsbD k = (b.byteAt (4 * (w + i) + k)).isSome ∧
        laneByte x.data k = (b.byteAt (4 * (w + i) + k)).elim 0 StoredByte.val)

/-- The eight words of an abort record, field by field, for an image in its ranges; and number, class and transient bit
of every abort code. -/
def Obligations.RecordWordsHoldTheImage : Prop :=
  (∀ (m : Image) (w : Fin 8 → Word), m.depth < 8 → m.notice < 4 → m.lifetime < 65536 → m.slots < 64 →
    m.reads < 32 → m.cycles < 65536 → m.counter < 16 → recordWords m = (List.finRange 8).map w →
    (w 0).extractLsb' 0 4 = 1 ∧ (w 0).extractLsb' 4 8 = m.code.num ∧
    ((w 0).extractLsb' 12 2).toNat = m.code.cls ∧ (w 0).getLsbD 14 = m.code.transient ∧
    ((w 0).extractLsb' 15 3).toNat = m.depth ∧ ((w 0).extractLsb' 18 2).toNat = m.ctx.val ∧
    (w 0).getLsbD 20 = m.bounded ∧ ((w 0).extractLsb' 21 2).toNat = m.notice ∧ (w 0).extractLsb' 23 9 = 0 ∧
    (w 1).extractLsb' 0 28 = m.cause.getD 0 ∧ (w 1).extractLsb' 28 3 = 0 ∧ (w 1).getLsbD 31 = m.cause.isSome ∧
    (m.party = none → w 2 = 0) ∧ (∀ c, m.party = some (.ctx c) → (w 2).toNat = 2 ^ 31 + c.val) ∧
    (∀ p, m.party = some (.port p) → (w 2).toNat = 2 ^ 31 + 2 ^ 30 + p.val) ∧
    (w 3).toNat = m.lifetime ∧ (w 4).toNat = m.slots + 256 * m.reads ∧ (w 5).toNat = m.cycles ∧
    (w 6).toNat = m.counter + 256 * m.relation.num ∧ (w 7).toNat = m.outerArg.toNat) ∧
  [AbortCode.conflict, .invaded, .timeout, .capacity, .bounds, .depth, .untracked, .locked, .parity, .memerr,
    .quiesce, .portReset, .blocked].map (fun k => (k.num.toNat, k.cls, k.transient)) =
    [(1, 3, true), (2, 3, true), (3, 3, true), (4, 2, false), (5, 2, false), (6, 2, false), (7, 2, false),
     (8, 2, false), (9, 1, false), (10, 1, false), (11, 3, true), (12, 1, true), (13, 2, false)] ∧
  ∀ b : Byte, (AbortCode.user b).num = b ∧ (AbortCode.user b).cls = 3 ∧
    ((AbortCode.user b).transient = true ↔ b.toNat % 2 = 0)

/-- FLT# is asserted while a port has a set flag whose mask bit is 0, a port's ABT# while its context is ABORTING or
DOOMED, QACK# in QUIESCED; the memory side is driven for the beat whose turn it is, on a write with lanes not enabled at
00h on XD and even parity over every lane on XP, on a read with neither (the view shows none there, the model's
placeholder: log entry 16). -/
def Obligations.OutputLinesFollowTheState : Prop :=
  ∀ s : State,
    (s.flt = true ↔ ∃ (p : PortId) (k : Nat), k < 8 ∧ (s.port p).flags.getLsbD k = true ∧
      s.masks.getLsbD k = false) ∧
    (∀ p, s.abt p = true ↔ (s.ctx (s.serving p)).state = .aborting ∨ (s.ctx (s.serving p)).state = .doomed) ∧
    (s.qack = true ↔ s.bridge = .quiesced) ∧
    (s.bus = none → s.busLines = none) ∧
    (∀ (b : BusBurst) (y : BurstBeat), s.bus = some b → b.burst.beats[b.answered]? = some y →
      b.burst.beats.length ∈ [1, 2, 4, 8] → ∃ x, s.busLines = some x ∧ x.xa = b.burst.addr ∧
        x.xk = b.burst.write ∧ 2 ^ x.xl.toNat = b.burst.beats.length ∧ x.xbe = y.en ∧
        (b.burst.write = false → x.xd = none ∧ x.xp = none) ∧
        (b.burst.write = true → ∃ d par, x.xd = some d ∧ x.xp = some par ∧ ∀ n < 4,
          laneByte d n = (if y.en.getLsbD n = true then laneByte y.data n else 0) ∧
          par.getLsbD n = byteParity (laneByte d n)))

/-! ### What every step keeps -/

/-- After every step no grant is open on a FREE bus and the head of the job queue has started, if it was so before. -/
def Obligations.StepKeepsTheBridgeSettled : Prop :=
  ∀ s t : State, s.settled → step s = .next t → t.settled

/-- Every step keeps the job queue matched to the contexts: one job for each COMMITTING and each ABORTING context, of
its kind, for no other context any, and only the head at work. -/
def Obligations.StepKeepsJobsMatched : Prop :=
  ∀ s t : State, s.jobsMatch → s.tailWaits → step s = .next t → t.jobsMatch ∧ t.tailWaits

/-- Every step keeps the contexts formed, the age list the OPEN contexts each once, the counts in their ranges, and read
sets bounded, free of repeats and of OPEN contexts only. -/
def Obligations.StepKeepsGroupsFormed : Prop :=
  ∀ s t : State, s.jobsMatch → s.contextsFormed → s.agesMatch → s.readsBounded → s.countsBounded →
    step s = .next t → t.contextsFormed ∧ t.agesMatch ∧ t.readsBounded ∧ t.countsBounded

/-- Every step keeps queue, token, timer and counters together: nobody queued twice or beside the token, a HELD token
only with an OPEN owner, a FREE token only with an empty queue, nothing with escalation off, counters to 15. -/
def Obligations.StepKeepsEscalationFormed : Prop :=
  ∀ s t : State, s.jobsMatch → s.escalationFormed → step s = .next t → t.escalationFormed

/-- Every step keeps the quiesce promise: outside RUNNING no context is OPEN, and a QUIESCED bridge, whose QACK# is
asserted, has no OPEN, COMMITTING or ABORTING context and an empty job queue. -/
def Obligations.StepKeepsQuiesce : Prop :=
  ∀ s t : State, s.quiesceKept → step s = .next t → t.quiesceKept

/-- Every step keeps a held mark with a port that its context serves and that waits on that CLOSE, each request and
burst with its port's cycle in progress, and no two pairs on one line. -/
def Obligations.StepKeepsPortsMatched : Prop :=
  ∀ s t : State, s.contextsFormed → s.heldMatch → s.requestsOwned → s.pairsApart → step s = .next t →
    t.heldMatch ∧ t.requestsOwned ∧ t.pairsApart

/-- Every step keeps the store formed, each slot on its owner's list alone and no line staged twice, and keeps every
line that an OPEN group has staged out of every other OPEN group's footprint. -/
def Obligations.StepKeepsStagedLinesAlone : Prop :=
  ∀ s t : State, s.jobsMatch → s.readsBounded → s.storeFormed → s.writesAlone → step s = .next t →
    t.storeFormed ∧ t.writesAlone

/-- The state after reset, whatever the straps, has every property that the statements on steps keep. -/
def Obligations.ResetMeetsTheInvariants : Prop :=
  ∀ (st : Straps) (s : State), s = State.afterPartReset st →
    s.settled ∧ s.jobsMatch ∧ s.tailWaits ∧ s.contextsFormed ∧ s.agesMatch ∧ s.readsBounded ∧ s.countsBounded ∧
    s.escalationFormed ∧ s.quiesceKept ∧ s.storeFormed ∧ s.writesAlone ∧ s.heldMatch ∧ s.requestsOwned ∧ s.pairsApart

end
end

