-- ==== Sys2Proof/Laws/State.lean ====
section
/-! SUPPORT. What each update of the state changes and what it leaves: one statement per update, every clause true by
rfl, so that no proof unfolds a record update. -/

namespace Sys2Proof

/-! ### Four like things -/

/-- Reading an entry after setting one. -/
@[simp] theorem Four.get_set {α : Type} (f : Four α) (i j : Fin 4) (a : α) :
    (f.set i a).get j = if j = i then a else f.get j := by
  fin_cases i <;> fin_cases j <;> rfl

/-- The entry just set reads as it was set. -/
theorem Four.get_set_same {α : Type} (f : Four α) (i : Fin 4) (a : α) : (f.set i a).get i = a := by simp

/-- Every entry of four times the same is that thing. -/
@[simp] theorem Four.get_same {α : Type} (a : α) (i : Fin 4) : (Four.same a).get i = a := by fin_cases i <;> rfl

/-- Setting an entry twice leaves the second. -/
@[simp] theorem Four.set_set {α : Type} (f : Four α) (i : Fin 4) (a b : α) : (f.set i a).set i b = f.set i b := by
  fin_cases i <;> rfl

/-- Setting an entry to what it is changes nothing. -/
@[simp] theorem Four.set_get {α : Type} (f : Four α) (i : Fin 4) : f.set i (f.get i) = f := by fin_cases i <;> rfl

/-- Four things are equal when all four entries are. -/
theorem Four.ext_get {α : Type} {f g : Four α} (h : ∀ i, f.get i = g.get i) : f = g := by
  have h0 := h 0
  have h1 := h 1
  have h2 := h 2
  have h3 := h 3
  cases f
  cases g
  simp_all [Four.get]

/-- Every index is one of the four. -/
@[simp] theorem mem_four (i : Fin 4) : i ∈ four := by fin_cases i <;> decide

end Sys2Proof

namespace Sys2Proof.Machine

/-! ### The updates -/

/-- Changing one context changes nothing else. -/
@[simp] theorem State.setCtx_frame (s : State) (c : CtxId) (x : Context) :
    (s.setCtx c x).ages = s.ages ∧ (s.setCtx c x).readSets = s.readSets ∧ (s.setCtx c x).inFlight = s.inFlight ∧
      (s.setCtx c x).slots = s.slots ∧ (s.setCtx c x).orders = s.orders ∧ (s.setCtx c x).caps = s.caps ∧
      (s.setCtx c x).jobs = s.jobs ∧ (s.setCtx c x).counters = s.counters ∧
      (s.setCtx c x).prioQueue = s.prioQueue ∧ (s.setCtx c x).token = s.token ∧ (s.setCtx c x).window = s.window ∧
      (s.setCtx c x).threshold = s.threshold ∧ (s.setCtx c x).windowLen = s.windowLen ∧
      (s.setCtx c x).ports = s.ports ∧ (s.setCtx c x).tickSource = s.tickSource ∧
      (s.setCtx c x).divisor = s.divisor ∧ (s.setCtx c x).tickLevel = s.tickLevel ∧
      (s.setCtx c x).lifetimes = s.lifetimes ∧ (s.setCtx c x).regions = s.regions ∧ (s.setCtx c x).bus = s.bus ∧
      (s.setCtx c x).reqs = s.reqs ∧ (s.setCtx c x).pointer = s.pointer ∧ (s.setCtx c x).cfgPort = s.cfgPort ∧
      (s.setCtx c x).joinA = s.joinA ∧ (s.setCtx c x).joinB = s.joinB ∧ (s.setCtx c x).masks = s.masks ∧
      (s.setCtx c x).bridge = s.bridge ∧ (s.setCtx c x).qreq = s.qreq ∧ (s.setCtx c x).rst = s.rst ∧
      (s.setCtx c x).freeCount = s.freeCount ∧ (s.setCtx c x).pending = s.pending :=
  ⟨rfl, rfl, rfl, rfl, rfl, rfl, rfl, rfl, rfl, rfl, rfl, rfl, rfl, rfl, rfl, rfl, rfl, rfl, rfl, rfl, rfl, rfl, rfl, rfl, rfl, rfl, rfl, rfl, rfl, rfl, rfl⟩

/-- Changing one port changes nothing else. -/
@[simp] theorem State.setPort_frame (s : State) (p : PortId) (q : PortState) :
    (s.setPort p q).ctxs = s.ctxs ∧ (s.setPort p q).ages = s.ages ∧ (s.setPort p q).readSets = s.readSets ∧
      (s.setPort p q).inFlight = s.inFlight ∧ (s.setPort p q).slots = s.slots ∧
      (s.setPort p q).orders = s.orders ∧ (s.setPort p q).caps = s.caps ∧ (s.setPort p q).jobs = s.jobs ∧
      (s.setPort p q).counters = s.counters ∧ (s.setPort p q).prioQueue = s.prioQueue ∧
      (s.setPort p q).token = s.token ∧ (s.setPort p q).window = s.window ∧
      (s.setPort p q).threshold = s.threshold ∧ (s.setPort p q).windowLen = s.windowLen ∧
      (s.setPort p q).tickSource = s.tickSource ∧ (s.setPort p q).divisor = s.divisor ∧
      (s.setPort p q).tickLevel = s.tickLevel ∧ (s.setPort p q).lifetimes = s.lifetimes ∧
      (s.setPort p q).regions = s.regions ∧ (s.setPort p q).bus = s.bus ∧ (s.setPort p q).reqs = s.reqs ∧
      (s.setPort p q).pointer = s.pointer ∧ (s.setPort p q).cfgPort = s.cfgPort ∧
      (s.setPort p q).joinA = s.joinA ∧ (s.setPort p q).joinB = s.joinB ∧ (s.setPort p q).masks = s.masks ∧
      (s.setPort p q).bridge = s.bridge ∧ (s.setPort p q).qreq = s.qreq ∧ (s.setPort p q).rst = s.rst ∧
      (s.setPort p q).freeCount = s.freeCount ∧ (s.setPort p q).pending = s.pending :=
  ⟨rfl, rfl, rfl, rfl, rfl, rfl, rfl, rfl, rfl, rfl, rfl, rfl, rfl, rfl, rfl, rfl, rfl, rfl, rfl, rfl, rfl, rfl, rfl, rfl, rfl, rfl, rfl, rfl, rfl, rfl, rfl⟩

/-- Changing one read set changes nothing else. -/
@[simp] theorem State.setReads_frame (s : State) (c : CtxId) (l : List Line) :
    (s.setReads c l).ctxs = s.ctxs ∧ (s.setReads c l).ages = s.ages ∧ (s.setReads c l).inFlight = s.inFlight ∧
      (s.setReads c l).slots = s.slots ∧ (s.setReads c l).orders = s.orders ∧ (s.setReads c l).caps = s.caps ∧
      (s.setReads c l).jobs = s.jobs ∧ (s.setReads c l).counters = s.counters ∧
      (s.setReads c l).prioQueue = s.prioQueue ∧ (s.setReads c l).token = s.token ∧
      (s.setReads c l).window = s.window ∧ (s.setReads c l).threshold = s.threshold ∧
      (s.setReads c l).windowLen = s.windowLen ∧ (s.setReads c l).ports = s.ports ∧
      (s.setReads c l).tickSource = s.tickSource ∧ (s.setReads c l).divisor = s.divisor ∧
      (s.setReads c l).tickLevel = s.tickLevel ∧ (s.setReads c l).lifetimes = s.lifetimes ∧
      (s.setReads c l).regions = s.regions ∧ (s.setReads c l).bus = s.bus ∧ (s.setReads c l).reqs = s.reqs ∧
      (s.setReads c l).pointer = s.pointer ∧ (s.setReads c l).cfgPort = s.cfgPort ∧
      (s.setReads c l).joinA = s.joinA ∧ (s.setReads c l).joinB = s.joinB ∧ (s.setReads c l).masks = s.masks ∧
      (s.setReads c l).bridge = s.bridge ∧ (s.setReads c l).qreq = s.qreq ∧ (s.setReads c l).rst = s.rst ∧
      (s.setReads c l).freeCount = s.freeCount ∧ (s.setReads c l).pending = s.pending :=
  ⟨rfl, rfl, rfl, rfl, rfl, rfl, rfl, rfl, rfl, rfl, rfl, rfl, rfl, rfl, rfl, rfl, rfl, rfl, rfl, rfl, rfl, rfl, rfl, rfl, rfl, rfl, rfl, rfl, rfl, rfl, rfl⟩

/-- Changing one write-order list changes nothing else. -/
@[simp] theorem State.setOrder_frame (s : State) (c : CtxId) (l : List SlotId) :
    (s.setOrder c l).ctxs = s.ctxs ∧ (s.setOrder c l).ages = s.ages ∧ (s.setOrder c l).readSets = s.readSets ∧
      (s.setOrder c l).inFlight = s.inFlight ∧ (s.setOrder c l).slots = s.slots ∧ (s.setOrder c l).caps = s.caps ∧
      (s.setOrder c l).jobs = s.jobs ∧ (s.setOrder c l).counters = s.counters ∧
      (s.setOrder c l).prioQueue = s.prioQueue ∧ (s.setOrder c l).token = s.token ∧
      (s.setOrder c l).window = s.window ∧ (s.setOrder c l).threshold = s.threshold ∧
      (s.setOrder c l).windowLen = s.windowLen ∧ (s.setOrder c l).ports = s.ports ∧
      (s.setOrder c l).tickSource = s.tickSource ∧ (s.setOrder c l).divisor = s.divisor ∧
      (s.setOrder c l).tickLevel = s.tickLevel ∧ (s.setOrder c l).lifetimes = s.lifetimes ∧
      (s.setOrder c l).regions = s.regions ∧ (s.setOrder c l).bus = s.bus ∧ (s.setOrder c l).reqs = s.reqs ∧
      (s.setOrder c l).pointer = s.pointer ∧ (s.setOrder c l).cfgPort = s.cfgPort ∧
      (s.setOrder c l).joinA = s.joinA ∧ (s.setOrder c l).joinB = s.joinB ∧ (s.setOrder c l).masks = s.masks ∧
      (s.setOrder c l).bridge = s.bridge ∧ (s.setOrder c l).qreq = s.qreq ∧ (s.setOrder c l).rst = s.rst ∧
      (s.setOrder c l).freeCount = s.freeCount ∧ (s.setOrder c l).pending = s.pending :=
  ⟨rfl, rfl, rfl, rfl, rfl, rfl, rfl, rfl, rfl, rfl, rfl, rfl, rfl, rfl, rfl, rfl, rfl, rfl, rfl, rfl, rfl, rfl, rfl, rfl, rfl, rfl, rfl, rfl, rfl, rfl, rfl⟩

/-- Changing the slots changes nothing else. -/
@[simp] theorem State.setSlots_frame (s : State) (v : Vector (Option SlotBody) 48) :
    (s.setSlots v).ctxs = s.ctxs ∧ (s.setSlots v).ages = s.ages ∧ (s.setSlots v).readSets = s.readSets ∧
      (s.setSlots v).inFlight = s.inFlight ∧ (s.setSlots v).orders = s.orders ∧ (s.setSlots v).caps = s.caps ∧
      (s.setSlots v).jobs = s.jobs ∧ (s.setSlots v).counters = s.counters ∧
      (s.setSlots v).prioQueue = s.prioQueue ∧ (s.setSlots v).token = s.token ∧ (s.setSlots v).window = s.window ∧
      (s.setSlots v).threshold = s.threshold ∧ (s.setSlots v).windowLen = s.windowLen ∧
      (s.setSlots v).ports = s.ports ∧ (s.setSlots v).tickSource = s.tickSource ∧
      (s.setSlots v).divisor = s.divisor ∧ (s.setSlots v).tickLevel = s.tickLevel ∧
      (s.setSlots v).lifetimes = s.lifetimes ∧ (s.setSlots v).regions = s.regions ∧ (s.setSlots v).bus = s.bus ∧
      (s.setSlots v).reqs = s.reqs ∧ (s.setSlots v).pointer = s.pointer ∧ (s.setSlots v).cfgPort = s.cfgPort ∧
      (s.setSlots v).joinA = s.joinA ∧ (s.setSlots v).joinB = s.joinB ∧ (s.setSlots v).masks = s.masks ∧
      (s.setSlots v).bridge = s.bridge ∧ (s.setSlots v).qreq = s.qreq ∧ (s.setSlots v).rst = s.rst ∧
      (s.setSlots v).freeCount = s.freeCount ∧ (s.setSlots v).pending = s.pending :=
  ⟨rfl, rfl, rfl, rfl, rfl, rfl, rfl, rfl, rfl, rfl, rfl, rfl, rfl, rfl, rfl, rfl, rfl, rfl, rfl, rfl, rfl, rfl, rfl, rfl, rfl, rfl, rfl, rfl, rfl, rfl, rfl⟩

/-- Changing one slot changes nothing else. -/
@[simp] theorem State.setSlot_frame (s : State) (i : SlotId) (b : Option SlotBody) :
    (s.setSlot i b).ctxs = s.ctxs ∧ (s.setSlot i b).ages = s.ages ∧ (s.setSlot i b).readSets = s.readSets ∧
      (s.setSlot i b).inFlight = s.inFlight ∧ (s.setSlot i b).orders = s.orders ∧ (s.setSlot i b).caps = s.caps ∧
      (s.setSlot i b).jobs = s.jobs ∧ (s.setSlot i b).counters = s.counters ∧
      (s.setSlot i b).prioQueue = s.prioQueue ∧ (s.setSlot i b).token = s.token ∧
      (s.setSlot i b).window = s.window ∧ (s.setSlot i b).threshold = s.threshold ∧
      (s.setSlot i b).windowLen = s.windowLen ∧ (s.setSlot i b).ports = s.ports ∧
      (s.setSlot i b).tickSource = s.tickSource ∧ (s.setSlot i b).divisor = s.divisor ∧
      (s.setSlot i b).tickLevel = s.tickLevel ∧ (s.setSlot i b).lifetimes = s.lifetimes ∧
      (s.setSlot i b).regions = s.regions ∧ (s.setSlot i b).bus = s.bus ∧ (s.setSlot i b).reqs = s.reqs ∧
      (s.setSlot i b).pointer = s.pointer ∧ (s.setSlot i b).cfgPort = s.cfgPort ∧
      (s.setSlot i b).joinA = s.joinA ∧ (s.setSlot i b).joinB = s.joinB ∧ (s.setSlot i b).masks = s.masks ∧
      (s.setSlot i b).bridge = s.bridge ∧ (s.setSlot i b).qreq = s.qreq ∧ (s.setSlot i b).rst = s.rst ∧
      (s.setSlot i b).freeCount = s.freeCount ∧ (s.setSlot i b).pending = s.pending :=
  ⟨rfl, rfl, rfl, rfl, rfl, rfl, rfl, rfl, rfl, rfl, rfl, rfl, rfl, rfl, rfl, rfl, rfl, rfl, rfl, rfl, rfl, rfl, rfl, rfl, rfl, rfl, rfl, rfl, rfl, rfl, rfl⟩

/-- Changing one counter changes nothing else. -/
@[simp] theorem State.setCounter_frame (s : State) (c : CtxId) (n : Nat) :
    (s.setCounter c n).ctxs = s.ctxs ∧ (s.setCounter c n).ages = s.ages ∧
      (s.setCounter c n).readSets = s.readSets ∧ (s.setCounter c n).inFlight = s.inFlight ∧
      (s.setCounter c n).slots = s.slots ∧ (s.setCounter c n).orders = s.orders ∧
      (s.setCounter c n).caps = s.caps ∧ (s.setCounter c n).jobs = s.jobs ∧
      (s.setCounter c n).prioQueue = s.prioQueue ∧ (s.setCounter c n).token = s.token ∧
      (s.setCounter c n).window = s.window ∧ (s.setCounter c n).threshold = s.threshold ∧
      (s.setCounter c n).windowLen = s.windowLen ∧ (s.setCounter c n).ports = s.ports ∧
      (s.setCounter c n).tickSource = s.tickSource ∧ (s.setCounter c n).divisor = s.divisor ∧
      (s.setCounter c n).tickLevel = s.tickLevel ∧ (s.setCounter c n).lifetimes = s.lifetimes ∧
      (s.setCounter c n).regions = s.regions ∧ (s.setCounter c n).bus = s.bus ∧ (s.setCounter c n).reqs = s.reqs ∧
      (s.setCounter c n).pointer = s.pointer ∧ (s.setCounter c n).cfgPort = s.cfgPort ∧
      (s.setCounter c n).joinA = s.joinA ∧ (s.setCounter c n).joinB = s.joinB ∧
      (s.setCounter c n).masks = s.masks ∧ (s.setCounter c n).bridge = s.bridge ∧
      (s.setCounter c n).qreq = s.qreq ∧ (s.setCounter c n).rst = s.rst ∧
      (s.setCounter c n).freeCount = s.freeCount ∧ (s.setCounter c n).pending = s.pending :=
  ⟨rfl, rfl, rfl, rfl, rfl, rfl, rfl, rfl, rfl, rfl, rfl, rfl, rfl, rfl, rfl, rfl, rfl, rfl, rfl, rfl, rfl, rfl, rfl, rfl, rfl, rfl, rfl, rfl, rfl, rfl, rfl⟩

/-- Changing the age list changes nothing else. -/
@[simp] theorem State.setAges_frame (s : State) (l : List CtxId) :
    (s.setAges l).ctxs = s.ctxs ∧ (s.setAges l).readSets = s.readSets ∧ (s.setAges l).inFlight = s.inFlight ∧
      (s.setAges l).slots = s.slots ∧ (s.setAges l).orders = s.orders ∧ (s.setAges l).caps = s.caps ∧
      (s.setAges l).jobs = s.jobs ∧ (s.setAges l).counters = s.counters ∧ (s.setAges l).prioQueue = s.prioQueue ∧
      (s.setAges l).token = s.token ∧ (s.setAges l).window = s.window ∧ (s.setAges l).threshold = s.threshold ∧
      (s.setAges l).windowLen = s.windowLen ∧ (s.setAges l).ports = s.ports ∧
      (s.setAges l).tickSource = s.tickSource ∧ (s.setAges l).divisor = s.divisor ∧
      (s.setAges l).tickLevel = s.tickLevel ∧ (s.setAges l).lifetimes = s.lifetimes ∧
      (s.setAges l).regions = s.regions ∧ (s.setAges l).bus = s.bus ∧ (s.setAges l).reqs = s.reqs ∧
      (s.setAges l).pointer = s.pointer ∧ (s.setAges l).cfgPort = s.cfgPort ∧ (s.setAges l).joinA = s.joinA ∧
      (s.setAges l).joinB = s.joinB ∧ (s.setAges l).masks = s.masks ∧ (s.setAges l).bridge = s.bridge ∧
      (s.setAges l).qreq = s.qreq ∧ (s.setAges l).rst = s.rst ∧ (s.setAges l).freeCount = s.freeCount ∧
      (s.setAges l).pending = s.pending :=
  ⟨rfl, rfl, rfl, rfl, rfl, rfl, rfl, rfl, rfl, rfl, rfl, rfl, rfl, rfl, rfl, rfl, rfl, rfl, rfl, rfl, rfl, rfl, rfl, rfl, rfl, rfl, rfl, rfl, rfl, rfl, rfl⟩

/-- Changing the job queue changes nothing else. -/
@[simp] theorem State.setJobs_frame (s : State) (l : List Job) :
    (s.setJobs l).ctxs = s.ctxs ∧ (s.setJobs l).ages = s.ages ∧ (s.setJobs l).readSets = s.readSets ∧
      (s.setJobs l).inFlight = s.inFlight ∧ (s.setJobs l).slots = s.slots ∧ (s.setJobs l).orders = s.orders ∧
      (s.setJobs l).caps = s.caps ∧ (s.setJobs l).counters = s.counters ∧ (s.setJobs l).prioQueue = s.prioQueue ∧
      (s.setJobs l).token = s.token ∧ (s.setJobs l).window = s.window ∧ (s.setJobs l).threshold = s.threshold ∧
      (s.setJobs l).windowLen = s.windowLen ∧ (s.setJobs l).ports = s.ports ∧
      (s.setJobs l).tickSource = s.tickSource ∧ (s.setJobs l).divisor = s.divisor ∧
      (s.setJobs l).tickLevel = s.tickLevel ∧ (s.setJobs l).lifetimes = s.lifetimes ∧
      (s.setJobs l).regions = s.regions ∧ (s.setJobs l).bus = s.bus ∧ (s.setJobs l).reqs = s.reqs ∧
      (s.setJobs l).pointer = s.pointer ∧ (s.setJobs l).cfgPort = s.cfgPort ∧ (s.setJobs l).joinA = s.joinA ∧
      (s.setJobs l).joinB = s.joinB ∧ (s.setJobs l).masks = s.masks ∧ (s.setJobs l).bridge = s.bridge ∧
      (s.setJobs l).qreq = s.qreq ∧ (s.setJobs l).rst = s.rst ∧ (s.setJobs l).freeCount = s.freeCount ∧
      (s.setJobs l).pending = s.pending :=
  ⟨rfl, rfl, rfl, rfl, rfl, rfl, rfl, rfl, rfl, rfl, rfl, rfl, rfl, rfl, rfl, rfl, rfl, rfl, rfl, rfl, rfl, rfl, rfl, rfl, rfl, rfl, rfl, rfl, rfl, rfl, rfl⟩

/-- Changing the token and its timer changes nothing else. -/
@[simp] theorem State.setToken_frame (s : State) (t : Token) (w : Option Nat) :
    (s.setToken t w).ctxs = s.ctxs ∧ (s.setToken t w).ages = s.ages ∧ (s.setToken t w).readSets = s.readSets ∧
      (s.setToken t w).inFlight = s.inFlight ∧ (s.setToken t w).slots = s.slots ∧
      (s.setToken t w).orders = s.orders ∧ (s.setToken t w).caps = s.caps ∧ (s.setToken t w).jobs = s.jobs ∧
      (s.setToken t w).counters = s.counters ∧ (s.setToken t w).prioQueue = s.prioQueue ∧
      (s.setToken t w).threshold = s.threshold ∧ (s.setToken t w).windowLen = s.windowLen ∧
      (s.setToken t w).ports = s.ports ∧ (s.setToken t w).tickSource = s.tickSource ∧
      (s.setToken t w).divisor = s.divisor ∧ (s.setToken t w).tickLevel = s.tickLevel ∧
      (s.setToken t w).lifetimes = s.lifetimes ∧ (s.setToken t w).regions = s.regions ∧
      (s.setToken t w).bus = s.bus ∧ (s.setToken t w).reqs = s.reqs ∧ (s.setToken t w).pointer = s.pointer ∧
      (s.setToken t w).cfgPort = s.cfgPort ∧ (s.setToken t w).joinA = s.joinA ∧ (s.setToken t w).joinB = s.joinB ∧
      (s.setToken t w).masks = s.masks ∧ (s.setToken t w).bridge = s.bridge ∧ (s.setToken t w).qreq = s.qreq ∧
      (s.setToken t w).rst = s.rst ∧ (s.setToken t w).freeCount = s.freeCount ∧
      (s.setToken t w).pending = s.pending :=
  ⟨rfl, rfl, rfl, rfl, rfl, rfl, rfl, rfl, rfl, rfl, rfl, rfl, rfl, rfl, rfl, rfl, rfl, rfl, rfl, rfl, rfl, rfl, rfl, rfl, rfl, rfl, rfl, rfl, rfl, rfl⟩

/-- Changing the priority queue changes nothing else. -/
@[simp] theorem State.setQueue_frame (s : State) (l : List CtxId) :
    (s.setQueue l).ctxs = s.ctxs ∧ (s.setQueue l).ages = s.ages ∧ (s.setQueue l).readSets = s.readSets ∧
      (s.setQueue l).inFlight = s.inFlight ∧ (s.setQueue l).slots = s.slots ∧ (s.setQueue l).orders = s.orders ∧
      (s.setQueue l).caps = s.caps ∧ (s.setQueue l).jobs = s.jobs ∧ (s.setQueue l).counters = s.counters ∧
      (s.setQueue l).token = s.token ∧ (s.setQueue l).window = s.window ∧ (s.setQueue l).threshold = s.threshold ∧
      (s.setQueue l).windowLen = s.windowLen ∧ (s.setQueue l).ports = s.ports ∧
      (s.setQueue l).tickSource = s.tickSource ∧ (s.setQueue l).divisor = s.divisor ∧
      (s.setQueue l).tickLevel = s.tickLevel ∧ (s.setQueue l).lifetimes = s.lifetimes ∧
      (s.setQueue l).regions = s.regions ∧ (s.setQueue l).bus = s.bus ∧ (s.setQueue l).reqs = s.reqs ∧
      (s.setQueue l).pointer = s.pointer ∧ (s.setQueue l).cfgPort = s.cfgPort ∧ (s.setQueue l).joinA = s.joinA ∧
      (s.setQueue l).joinB = s.joinB ∧ (s.setQueue l).masks = s.masks ∧ (s.setQueue l).bridge = s.bridge ∧
      (s.setQueue l).qreq = s.qreq ∧ (s.setQueue l).rst = s.rst ∧ (s.setQueue l).freeCount = s.freeCount ∧
      (s.setQueue l).pending = s.pending :=
  ⟨rfl, rfl, rfl, rfl, rfl, rfl, rfl, rfl, rfl, rfl, rfl, rfl, rfl, rfl, rfl, rfl, rfl, rfl, rfl, rfl, rfl, rfl, rfl, rfl, rfl, rfl, rfl, rfl, rfl, rfl, rfl⟩

/-- Changing the bus changes nothing else. -/
@[simp] theorem State.setBus_frame (s : State) (b : Option BusBurst) :
    (s.setBus b).ctxs = s.ctxs ∧ (s.setBus b).ages = s.ages ∧ (s.setBus b).readSets = s.readSets ∧
      (s.setBus b).inFlight = s.inFlight ∧ (s.setBus b).slots = s.slots ∧ (s.setBus b).orders = s.orders ∧
      (s.setBus b).caps = s.caps ∧ (s.setBus b).jobs = s.jobs ∧ (s.setBus b).counters = s.counters ∧
      (s.setBus b).prioQueue = s.prioQueue ∧ (s.setBus b).token = s.token ∧ (s.setBus b).window = s.window ∧
      (s.setBus b).threshold = s.threshold ∧ (s.setBus b).windowLen = s.windowLen ∧ (s.setBus b).ports = s.ports ∧
      (s.setBus b).tickSource = s.tickSource ∧ (s.setBus b).divisor = s.divisor ∧
      (s.setBus b).tickLevel = s.tickLevel ∧ (s.setBus b).lifetimes = s.lifetimes ∧
      (s.setBus b).regions = s.regions ∧ (s.setBus b).reqs = s.reqs ∧ (s.setBus b).pointer = s.pointer ∧
      (s.setBus b).cfgPort = s.cfgPort ∧ (s.setBus b).joinA = s.joinA ∧ (s.setBus b).joinB = s.joinB ∧
      (s.setBus b).masks = s.masks ∧ (s.setBus b).bridge = s.bridge ∧ (s.setBus b).qreq = s.qreq ∧
      (s.setBus b).rst = s.rst ∧ (s.setBus b).freeCount = s.freeCount ∧ (s.setBus b).pending = s.pending :=
  ⟨rfl, rfl, rfl, rfl, rfl, rfl, rfl, rfl, rfl, rfl, rfl, rfl, rfl, rfl, rfl, rfl, rfl, rfl, rfl, rfl, rfl, rfl, rfl, rfl, rfl, rfl, rfl, rfl, rfl, rfl, rfl⟩

/-- Changing the last winner changes nothing else. -/
@[simp] theorem State.setPointer_frame (s : State) (r : Requester) :
    (s.setPointer r).ctxs = s.ctxs ∧ (s.setPointer r).ages = s.ages ∧ (s.setPointer r).readSets = s.readSets ∧
      (s.setPointer r).inFlight = s.inFlight ∧ (s.setPointer r).slots = s.slots ∧
      (s.setPointer r).orders = s.orders ∧ (s.setPointer r).caps = s.caps ∧ (s.setPointer r).jobs = s.jobs ∧
      (s.setPointer r).counters = s.counters ∧ (s.setPointer r).prioQueue = s.prioQueue ∧
      (s.setPointer r).token = s.token ∧ (s.setPointer r).window = s.window ∧
      (s.setPointer r).threshold = s.threshold ∧ (s.setPointer r).windowLen = s.windowLen ∧
      (s.setPointer r).ports = s.ports ∧ (s.setPointer r).tickSource = s.tickSource ∧
      (s.setPointer r).divisor = s.divisor ∧ (s.setPointer r).tickLevel = s.tickLevel ∧
      (s.setPointer r).lifetimes = s.lifetimes ∧ (s.setPointer r).regions = s.regions ∧
      (s.setPointer r).bus = s.bus ∧ (s.setPointer r).reqs = s.reqs ∧ (s.setPointer r).cfgPort = s.cfgPort ∧
      (s.setPointer r).joinA = s.joinA ∧ (s.setPointer r).joinB = s.joinB ∧ (s.setPointer r).masks = s.masks ∧
      (s.setPointer r).bridge = s.bridge ∧ (s.setPointer r).qreq = s.qreq ∧ (s.setPointer r).rst = s.rst ∧
      (s.setPointer r).freeCount = s.freeCount ∧ (s.setPointer r).pending = s.pending :=
  ⟨rfl, rfl, rfl, rfl, rfl, rfl, rfl, rfl, rfl, rfl, rfl, rfl, rfl, rfl, rfl, rfl, rfl, rfl, rfl, rfl, rfl, rfl, rfl, rfl, rfl, rfl, rfl, rfl, rfl, rfl, rfl⟩

/-- Changing the writes in flight changes nothing else. -/
@[simp] theorem State.setInFlight_frame (s : State) (l : List (PortId × Line)) :
    (s.setInFlight l).ctxs = s.ctxs ∧ (s.setInFlight l).ages = s.ages ∧ (s.setInFlight l).readSets = s.readSets ∧
      (s.setInFlight l).slots = s.slots ∧ (s.setInFlight l).orders = s.orders ∧ (s.setInFlight l).caps = s.caps ∧
      (s.setInFlight l).jobs = s.jobs ∧ (s.setInFlight l).counters = s.counters ∧
      (s.setInFlight l).prioQueue = s.prioQueue ∧ (s.setInFlight l).token = s.token ∧
      (s.setInFlight l).window = s.window ∧ (s.setInFlight l).threshold = s.threshold ∧
      (s.setInFlight l).windowLen = s.windowLen ∧ (s.setInFlight l).ports = s.ports ∧
      (s.setInFlight l).tickSource = s.tickSource ∧ (s.setInFlight l).divisor = s.divisor ∧
      (s.setInFlight l).tickLevel = s.tickLevel ∧ (s.setInFlight l).lifetimes = s.lifetimes ∧
      (s.setInFlight l).regions = s.regions ∧ (s.setInFlight l).bus = s.bus ∧ (s.setInFlight l).reqs = s.reqs ∧
      (s.setInFlight l).pointer = s.pointer ∧ (s.setInFlight l).cfgPort = s.cfgPort ∧
      (s.setInFlight l).joinA = s.joinA ∧ (s.setInFlight l).joinB = s.joinB ∧ (s.setInFlight l).masks = s.masks ∧
      (s.setInFlight l).bridge = s.bridge ∧ (s.setInFlight l).qreq = s.qreq ∧ (s.setInFlight l).rst = s.rst ∧
      (s.setInFlight l).freeCount = s.freeCount ∧ (s.setInFlight l).pending = s.pending :=
  ⟨rfl, rfl, rfl, rfl, rfl, rfl, rfl, rfl, rfl, rfl, rfl, rfl, rfl, rfl, rfl, rfl, rfl, rfl, rfl, rfl, rfl, rfl, rfl, rfl, rfl, rfl, rfl, rfl, rfl, rfl, rfl⟩

/-- Changing the bridge state changes nothing else. -/
@[simp] theorem State.setBridge_frame (s : State) (b : Bridge) :
    (s.setBridge b).ctxs = s.ctxs ∧ (s.setBridge b).ages = s.ages ∧ (s.setBridge b).readSets = s.readSets ∧
      (s.setBridge b).inFlight = s.inFlight ∧ (s.setBridge b).slots = s.slots ∧
      (s.setBridge b).orders = s.orders ∧ (s.setBridge b).caps = s.caps ∧ (s.setBridge b).jobs = s.jobs ∧
      (s.setBridge b).counters = s.counters ∧ (s.setBridge b).prioQueue = s.prioQueue ∧
      (s.setBridge b).token = s.token ∧ (s.setBridge b).window = s.window ∧
      (s.setBridge b).threshold = s.threshold ∧ (s.setBridge b).windowLen = s.windowLen ∧
      (s.setBridge b).ports = s.ports ∧ (s.setBridge b).tickSource = s.tickSource ∧
      (s.setBridge b).divisor = s.divisor ∧ (s.setBridge b).tickLevel = s.tickLevel ∧
      (s.setBridge b).lifetimes = s.lifetimes ∧ (s.setBridge b).regions = s.regions ∧
      (s.setBridge b).bus = s.bus ∧ (s.setBridge b).reqs = s.reqs ∧ (s.setBridge b).pointer = s.pointer ∧
      (s.setBridge b).cfgPort = s.cfgPort ∧ (s.setBridge b).joinA = s.joinA ∧ (s.setBridge b).joinB = s.joinB ∧
      (s.setBridge b).masks = s.masks ∧ (s.setBridge b).qreq = s.qreq ∧ (s.setBridge b).rst = s.rst ∧
      (s.setBridge b).freeCount = s.freeCount ∧ (s.setBridge b).pending = s.pending :=
  ⟨rfl, rfl, rfl, rfl, rfl, rfl, rfl, rfl, rfl, rfl, rfl, rfl, rfl, rfl, rfl, rfl, rfl, rfl, rfl, rfl, rfl, rfl, rfl, rfl, rfl, rfl, rfl, rfl, rfl, rfl, rfl⟩

/-- Changing the free value's argument changes nothing else. -/
@[simp] theorem State.setFreeCount_frame (s : State) (n : Nat) :
    (s.setFreeCount n).ctxs = s.ctxs ∧ (s.setFreeCount n).ages = s.ages ∧
      (s.setFreeCount n).readSets = s.readSets ∧ (s.setFreeCount n).inFlight = s.inFlight ∧
      (s.setFreeCount n).slots = s.slots ∧ (s.setFreeCount n).orders = s.orders ∧
      (s.setFreeCount n).caps = s.caps ∧ (s.setFreeCount n).jobs = s.jobs ∧
      (s.setFreeCount n).counters = s.counters ∧ (s.setFreeCount n).prioQueue = s.prioQueue ∧
      (s.setFreeCount n).token = s.token ∧ (s.setFreeCount n).window = s.window ∧
      (s.setFreeCount n).threshold = s.threshold ∧ (s.setFreeCount n).windowLen = s.windowLen ∧
      (s.setFreeCount n).ports = s.ports ∧ (s.setFreeCount n).tickSource = s.tickSource ∧
      (s.setFreeCount n).divisor = s.divisor ∧ (s.setFreeCount n).tickLevel = s.tickLevel ∧
      (s.setFreeCount n).lifetimes = s.lifetimes ∧ (s.setFreeCount n).regions = s.regions ∧
      (s.setFreeCount n).bus = s.bus ∧ (s.setFreeCount n).reqs = s.reqs ∧ (s.setFreeCount n).pointer = s.pointer ∧
      (s.setFreeCount n).cfgPort = s.cfgPort ∧ (s.setFreeCount n).joinA = s.joinA ∧
      (s.setFreeCount n).joinB = s.joinB ∧ (s.setFreeCount n).masks = s.masks ∧
      (s.setFreeCount n).bridge = s.bridge ∧ (s.setFreeCount n).qreq = s.qreq ∧ (s.setFreeCount n).rst = s.rst ∧
      (s.setFreeCount n).pending = s.pending :=
  ⟨rfl, rfl, rfl, rfl, rfl, rfl, rfl, rfl, rfl, rfl, rfl, rfl, rfl, rfl, rfl, rfl, rfl, rfl, rfl, rfl, rfl, rfl, rfl, rfl, rfl, rfl, rfl, rfl, rfl, rfl, rfl⟩

/-- Changing one standing request changes nothing else. -/
@[simp] theorem State.setReq_frame (s : State) (p : PortId) (r : Option Request) :
    (s.setReq p r).ctxs = s.ctxs ∧ (s.setReq p r).ages = s.ages ∧ (s.setReq p r).readSets = s.readSets ∧
      (s.setReq p r).inFlight = s.inFlight ∧ (s.setReq p r).slots = s.slots ∧ (s.setReq p r).orders = s.orders ∧
      (s.setReq p r).caps = s.caps ∧ (s.setReq p r).jobs = s.jobs ∧ (s.setReq p r).counters = s.counters ∧
      (s.setReq p r).prioQueue = s.prioQueue ∧ (s.setReq p r).token = s.token ∧ (s.setReq p r).window = s.window ∧
      (s.setReq p r).threshold = s.threshold ∧ (s.setReq p r).windowLen = s.windowLen ∧
      (s.setReq p r).ports = s.ports ∧ (s.setReq p r).tickSource = s.tickSource ∧
      (s.setReq p r).divisor = s.divisor ∧ (s.setReq p r).tickLevel = s.tickLevel ∧
      (s.setReq p r).lifetimes = s.lifetimes ∧ (s.setReq p r).regions = s.regions ∧ (s.setReq p r).bus = s.bus ∧
      (s.setReq p r).pointer = s.pointer ∧ (s.setReq p r).cfgPort = s.cfgPort ∧ (s.setReq p r).joinA = s.joinA ∧
      (s.setReq p r).joinB = s.joinB ∧ (s.setReq p r).masks = s.masks ∧ (s.setReq p r).bridge = s.bridge ∧
      (s.setReq p r).qreq = s.qreq ∧ (s.setReq p r).rst = s.rst ∧ (s.setReq p r).freeCount = s.freeCount ∧
      (s.setReq p r).pending = s.pending :=
  ⟨rfl, rfl, rfl, rfl, rfl, rfl, rfl, rfl, rfl, rfl, rfl, rfl, rfl, rfl, rfl, rfl, rfl, rfl, rfl, rfl, rfl, rfl, rfl, rfl, rfl, rfl, rfl, rfl, rfl, rfl, rfl⟩

/-- Changing a port's answers changes nothing else. -/
@[simp] theorem State.respond_frame (s : State) (p : PortId) (as : List Answer) :
    (s.respond p as).ctxs = s.ctxs ∧ (s.respond p as).ages = s.ages ∧ (s.respond p as).readSets = s.readSets ∧
      (s.respond p as).inFlight = s.inFlight ∧ (s.respond p as).slots = s.slots ∧
      (s.respond p as).orders = s.orders ∧ (s.respond p as).caps = s.caps ∧ (s.respond p as).jobs = s.jobs ∧
      (s.respond p as).counters = s.counters ∧ (s.respond p as).prioQueue = s.prioQueue ∧
      (s.respond p as).token = s.token ∧ (s.respond p as).window = s.window ∧
      (s.respond p as).threshold = s.threshold ∧ (s.respond p as).windowLen = s.windowLen ∧
      (s.respond p as).tickSource = s.tickSource ∧ (s.respond p as).divisor = s.divisor ∧
      (s.respond p as).tickLevel = s.tickLevel ∧ (s.respond p as).lifetimes = s.lifetimes ∧
      (s.respond p as).regions = s.regions ∧ (s.respond p as).bus = s.bus ∧ (s.respond p as).reqs = s.reqs ∧
      (s.respond p as).pointer = s.pointer ∧ (s.respond p as).cfgPort = s.cfgPort ∧
      (s.respond p as).joinA = s.joinA ∧ (s.respond p as).joinB = s.joinB ∧ (s.respond p as).masks = s.masks ∧
      (s.respond p as).bridge = s.bridge ∧ (s.respond p as).qreq = s.qreq ∧ (s.respond p as).rst = s.rst ∧
      (s.respond p as).freeCount = s.freeCount ∧ (s.respond p as).pending = s.pending :=
  ⟨rfl, rfl, rfl, rfl, rfl, rfl, rfl, rfl, rfl, rfl, rfl, rfl, rfl, rfl, rfl, rfl, rfl, rfl, rfl, rfl, rfl, rfl, rfl, rfl, rfl, rfl, rfl, rfl, rfl, rfl, rfl⟩

/-- Changing a port's cycle in progress changes nothing else. -/
@[simp] theorem State.setCycle_frame (s : State) (p : PortId) (c : Option Cycle) :
    (s.setCycle p c).ctxs = s.ctxs ∧ (s.setCycle p c).ages = s.ages ∧ (s.setCycle p c).readSets = s.readSets ∧
      (s.setCycle p c).inFlight = s.inFlight ∧ (s.setCycle p c).slots = s.slots ∧
      (s.setCycle p c).orders = s.orders ∧ (s.setCycle p c).caps = s.caps ∧ (s.setCycle p c).jobs = s.jobs ∧
      (s.setCycle p c).counters = s.counters ∧ (s.setCycle p c).prioQueue = s.prioQueue ∧
      (s.setCycle p c).token = s.token ∧ (s.setCycle p c).window = s.window ∧
      (s.setCycle p c).threshold = s.threshold ∧ (s.setCycle p c).windowLen = s.windowLen ∧
      (s.setCycle p c).tickSource = s.tickSource ∧ (s.setCycle p c).divisor = s.divisor ∧
      (s.setCycle p c).tickLevel = s.tickLevel ∧ (s.setCycle p c).lifetimes = s.lifetimes ∧
      (s.setCycle p c).regions = s.regions ∧ (s.setCycle p c).bus = s.bus ∧ (s.setCycle p c).reqs = s.reqs ∧
      (s.setCycle p c).pointer = s.pointer ∧ (s.setCycle p c).cfgPort = s.cfgPort ∧
      (s.setCycle p c).joinA = s.joinA ∧ (s.setCycle p c).joinB = s.joinB ∧ (s.setCycle p c).masks = s.masks ∧
      (s.setCycle p c).bridge = s.bridge ∧ (s.setCycle p c).qreq = s.qreq ∧ (s.setCycle p c).rst = s.rst ∧
      (s.setCycle p c).freeCount = s.freeCount ∧ (s.setCycle p c).pending = s.pending :=
  ⟨rfl, rfl, rfl, rfl, rfl, rfl, rfl, rfl, rfl, rfl, rfl, rfl, rfl, rfl, rfl, rfl, rfl, rfl, rfl, rfl, rfl, rfl, rfl, rfl, rfl, rfl, rfl, rfl, rfl, rfl, rfl⟩

/-- Changing a port's pair changes nothing else. -/
@[simp] theorem State.setPair_frame (s : State) (p : PortId) (l : Option Line) :
    (s.setPair p l).ctxs = s.ctxs ∧ (s.setPair p l).ages = s.ages ∧ (s.setPair p l).readSets = s.readSets ∧
      (s.setPair p l).inFlight = s.inFlight ∧ (s.setPair p l).slots = s.slots ∧
      (s.setPair p l).orders = s.orders ∧ (s.setPair p l).caps = s.caps ∧ (s.setPair p l).jobs = s.jobs ∧
      (s.setPair p l).counters = s.counters ∧ (s.setPair p l).prioQueue = s.prioQueue ∧
      (s.setPair p l).token = s.token ∧ (s.setPair p l).window = s.window ∧
      (s.setPair p l).threshold = s.threshold ∧ (s.setPair p l).windowLen = s.windowLen ∧
      (s.setPair p l).tickSource = s.tickSource ∧ (s.setPair p l).divisor = s.divisor ∧
      (s.setPair p l).tickLevel = s.tickLevel ∧ (s.setPair p l).lifetimes = s.lifetimes ∧
      (s.setPair p l).regions = s.regions ∧ (s.setPair p l).bus = s.bus ∧ (s.setPair p l).reqs = s.reqs ∧
      (s.setPair p l).pointer = s.pointer ∧ (s.setPair p l).cfgPort = s.cfgPort ∧
      (s.setPair p l).joinA = s.joinA ∧ (s.setPair p l).joinB = s.joinB ∧ (s.setPair p l).masks = s.masks ∧
      (s.setPair p l).bridge = s.bridge ∧ (s.setPair p l).qreq = s.qreq ∧ (s.setPair p l).rst = s.rst ∧
      (s.setPair p l).freeCount = s.freeCount ∧ (s.setPair p l).pending = s.pending :=
  ⟨rfl, rfl, rfl, rfl, rfl, rfl, rfl, rfl, rfl, rfl, rfl, rfl, rfl, rfl, rfl, rfl, rfl, rfl, rfl, rfl, rfl, rfl, rfl, rfl, rfl, rfl, rfl, rfl, rfl, rfl, rfl⟩

/-- Changing a port's flags changes nothing else. -/
@[simp] theorem State.setFlag_frame (s : State) (p : PortId) (f : Flag) :
    (s.setFlag p f).ctxs = s.ctxs ∧ (s.setFlag p f).ages = s.ages ∧ (s.setFlag p f).readSets = s.readSets ∧
      (s.setFlag p f).inFlight = s.inFlight ∧ (s.setFlag p f).slots = s.slots ∧
      (s.setFlag p f).orders = s.orders ∧ (s.setFlag p f).caps = s.caps ∧ (s.setFlag p f).jobs = s.jobs ∧
      (s.setFlag p f).counters = s.counters ∧ (s.setFlag p f).prioQueue = s.prioQueue ∧
      (s.setFlag p f).token = s.token ∧ (s.setFlag p f).window = s.window ∧
      (s.setFlag p f).threshold = s.threshold ∧ (s.setFlag p f).windowLen = s.windowLen ∧
      (s.setFlag p f).tickSource = s.tickSource ∧ (s.setFlag p f).divisor = s.divisor ∧
      (s.setFlag p f).tickLevel = s.tickLevel ∧ (s.setFlag p f).lifetimes = s.lifetimes ∧
      (s.setFlag p f).regions = s.regions ∧ (s.setFlag p f).bus = s.bus ∧ (s.setFlag p f).reqs = s.reqs ∧
      (s.setFlag p f).pointer = s.pointer ∧ (s.setFlag p f).cfgPort = s.cfgPort ∧
      (s.setFlag p f).joinA = s.joinA ∧ (s.setFlag p f).joinB = s.joinB ∧ (s.setFlag p f).masks = s.masks ∧
      (s.setFlag p f).bridge = s.bridge ∧ (s.setFlag p f).qreq = s.qreq ∧ (s.setFlag p f).rst = s.rst ∧
      (s.setFlag p f).freeCount = s.freeCount ∧ (s.setFlag p f).pending = s.pending :=
  ⟨rfl, rfl, rfl, rfl, rfl, rfl, rfl, rfl, rfl, rfl, rfl, rfl, rfl, rfl, rfl, rfl, rfl, rfl, rfl, rfl, rfl, rfl, rfl, rfl, rfl, rfl, rfl, rfl, rfl, rfl, rfl⟩

/-- Changing a port's flags changes nothing else. -/
@[simp] theorem State.clearFlags_frame (s : State) (p : PortId) (m : BitVec 8) :
    (s.clearFlags p m).ctxs = s.ctxs ∧ (s.clearFlags p m).ages = s.ages ∧
      (s.clearFlags p m).readSets = s.readSets ∧ (s.clearFlags p m).inFlight = s.inFlight ∧
      (s.clearFlags p m).slots = s.slots ∧ (s.clearFlags p m).orders = s.orders ∧
      (s.clearFlags p m).caps = s.caps ∧ (s.clearFlags p m).jobs = s.jobs ∧
      (s.clearFlags p m).counters = s.counters ∧ (s.clearFlags p m).prioQueue = s.prioQueue ∧
      (s.clearFlags p m).token = s.token ∧ (s.clearFlags p m).window = s.window ∧
      (s.clearFlags p m).threshold = s.threshold ∧ (s.clearFlags p m).windowLen = s.windowLen ∧
      (s.clearFlags p m).tickSource = s.tickSource ∧ (s.clearFlags p m).divisor = s.divisor ∧
      (s.clearFlags p m).tickLevel = s.tickLevel ∧ (s.clearFlags p m).lifetimes = s.lifetimes ∧
      (s.clearFlags p m).regions = s.regions ∧ (s.clearFlags p m).bus = s.bus ∧ (s.clearFlags p m).reqs = s.reqs ∧
      (s.clearFlags p m).pointer = s.pointer ∧ (s.clearFlags p m).cfgPort = s.cfgPort ∧
      (s.clearFlags p m).joinA = s.joinA ∧ (s.clearFlags p m).joinB = s.joinB ∧
      (s.clearFlags p m).masks = s.masks ∧ (s.clearFlags p m).bridge = s.bridge ∧
      (s.clearFlags p m).qreq = s.qreq ∧ (s.clearFlags p m).rst = s.rst ∧
      (s.clearFlags p m).freeCount = s.freeCount ∧ (s.clearFlags p m).pending = s.pending :=
  ⟨rfl, rfl, rfl, rfl, rfl, rfl, rfl, rfl, rfl, rfl, rfl, rfl, rfl, rfl, rfl, rfl, rfl, rfl, rfl, rfl, rfl, rfl, rfl, rfl, rfl, rfl, rfl, rfl, rfl, rfl, rfl⟩

/-- Changing a port's answers changes nothing else. -/
@[simp] theorem State.beginCycle_frame (s : State) (p : PortId) :
    (s.beginCycle p).ctxs = s.ctxs ∧ (s.beginCycle p).ages = s.ages ∧ (s.beginCycle p).readSets = s.readSets ∧
      (s.beginCycle p).inFlight = s.inFlight ∧ (s.beginCycle p).slots = s.slots ∧
      (s.beginCycle p).orders = s.orders ∧ (s.beginCycle p).caps = s.caps ∧ (s.beginCycle p).jobs = s.jobs ∧
      (s.beginCycle p).counters = s.counters ∧ (s.beginCycle p).prioQueue = s.prioQueue ∧
      (s.beginCycle p).token = s.token ∧ (s.beginCycle p).window = s.window ∧
      (s.beginCycle p).threshold = s.threshold ∧ (s.beginCycle p).windowLen = s.windowLen ∧
      (s.beginCycle p).tickSource = s.tickSource ∧ (s.beginCycle p).divisor = s.divisor ∧
      (s.beginCycle p).tickLevel = s.tickLevel ∧ (s.beginCycle p).lifetimes = s.lifetimes ∧
      (s.beginCycle p).regions = s.regions ∧ (s.beginCycle p).bus = s.bus ∧ (s.beginCycle p).reqs = s.reqs ∧
      (s.beginCycle p).pointer = s.pointer ∧ (s.beginCycle p).cfgPort = s.cfgPort ∧
      (s.beginCycle p).joinA = s.joinA ∧ (s.beginCycle p).joinB = s.joinB ∧ (s.beginCycle p).masks = s.masks ∧
      (s.beginCycle p).bridge = s.bridge ∧ (s.beginCycle p).qreq = s.qreq ∧ (s.beginCycle p).rst = s.rst ∧
      (s.beginCycle p).freeCount = s.freeCount ∧ (s.beginCycle p).pending = s.pending :=
  ⟨rfl, rfl, rfl, rfl, rfl, rfl, rfl, rfl, rfl, rfl, rfl, rfl, rfl, rfl, rfl, rfl, rfl, rfl, rfl, rfl, rfl, rfl, rfl, rfl, rfl, rfl, rfl, rfl, rfl, rfl, rfl⟩

/-- Changing one context leaves what is read from the rest. -/
@[simp] theorem State.setCtx_views (s : State) (c : CtxId) (x : Context) :
    (∀ i, (s.setCtx c x).port i = s.port i) ∧ (∀ i, (s.setCtx c x).reads i = s.reads i) ∧
      (∀ i, (s.setCtx c x).order i = s.order i) ∧ (∀ i, (s.setCtx c x).serving i = s.serving i) ∧
      (∀ i, (s.setCtx c x).served i = s.served i) ∧ (∀ i, (s.setCtx c x).kindOf i = s.kindOf i) ∧
      (s.setCtx c x).escalationOn = s.escalationOn ∧ (s.setCtx c x).windowFromW = s.windowFromW :=
  ⟨fun _ => rfl, fun _ => rfl, fun _ => rfl, fun _ => rfl, fun _ => rfl, fun _ => rfl, rfl, rfl⟩

/-- Changing one port leaves what is read from the rest. -/
@[simp] theorem State.setPort_views (s : State) (p : PortId) (q : PortState) :
    (∀ i, (s.setPort p q).ctx i = s.ctx i) ∧ (∀ i, (s.setPort p q).reads i = s.reads i) ∧
      (∀ i, (s.setPort p q).order i = s.order i) ∧ (∀ i, (s.setPort p q).serving i = s.serving i) ∧
      (∀ i, (s.setPort p q).served i = s.served i) ∧ (∀ i, (s.setPort p q).kindOf i = s.kindOf i) ∧
      (s.setPort p q).escalationOn = s.escalationOn ∧ (s.setPort p q).windowFromW = s.windowFromW :=
  ⟨fun _ => rfl, fun _ => rfl, fun _ => rfl, fun _ => rfl, fun _ => rfl, fun _ => rfl, rfl, rfl⟩

/-- Changing one read set leaves what is read from the rest. -/
@[simp] theorem State.setReads_views (s : State) (c : CtxId) (l : List Line) :
    (∀ i, (s.setReads c l).ctx i = s.ctx i) ∧ (∀ i, (s.setReads c l).port i = s.port i) ∧
      (∀ i, (s.setReads c l).order i = s.order i) ∧ (∀ i, (s.setReads c l).serving i = s.serving i) ∧
      (∀ i, (s.setReads c l).served i = s.served i) ∧ (∀ i, (s.setReads c l).kindOf i = s.kindOf i) ∧
      (s.setReads c l).escalationOn = s.escalationOn ∧ (s.setReads c l).windowFromW = s.windowFromW :=
  ⟨fun _ => rfl, fun _ => rfl, fun _ => rfl, fun _ => rfl, fun _ => rfl, fun _ => rfl, rfl, rfl⟩

/-- Changing one write-order list leaves what is read from the rest. -/
@[simp] theorem State.setOrder_views (s : State) (c : CtxId) (l : List SlotId) :
    (∀ i, (s.setOrder c l).ctx i = s.ctx i) ∧ (∀ i, (s.setOrder c l).port i = s.port i) ∧
      (∀ i, (s.setOrder c l).reads i = s.reads i) ∧ (∀ i, (s.setOrder c l).serving i = s.serving i) ∧
      (∀ i, (s.setOrder c l).served i = s.served i) ∧ (∀ i, (s.setOrder c l).kindOf i = s.kindOf i) ∧
      (s.setOrder c l).escalationOn = s.escalationOn ∧ (s.setOrder c l).windowFromW = s.windowFromW :=
  ⟨fun _ => rfl, fun _ => rfl, fun _ => rfl, fun _ => rfl, fun _ => rfl, fun _ => rfl, rfl, rfl⟩

/-- Changing the slots leaves what is read from the rest. -/
@[simp] theorem State.setSlots_views (s : State) (v : Vector (Option SlotBody) 48) :
    (∀ i, (s.setSlots v).ctx i = s.ctx i) ∧ (∀ i, (s.setSlots v).port i = s.port i) ∧
      (∀ i, (s.setSlots v).reads i = s.reads i) ∧ (∀ i, (s.setSlots v).order i = s.order i) ∧
      (∀ i, (s.setSlots v).serving i = s.serving i) ∧ (∀ i, (s.setSlots v).served i = s.served i) ∧
      (∀ i, (s.setSlots v).kindOf i = s.kindOf i) ∧ (s.setSlots v).escalationOn = s.escalationOn ∧
      (s.setSlots v).windowFromW = s.windowFromW :=
  ⟨fun _ => rfl, fun _ => rfl, fun _ => rfl, fun _ => rfl, fun _ => rfl, fun _ => rfl, fun _ => rfl, rfl, rfl⟩

/-- Changing one slot leaves what is read from the rest. -/
@[simp] theorem State.setSlot_views (s : State) (i : SlotId) (b : Option SlotBody) :
    (∀ j, (s.setSlot i b).ctx j = s.ctx j) ∧ (∀ j, (s.setSlot i b).port j = s.port j) ∧
      (∀ j, (s.setSlot i b).reads j = s.reads j) ∧ (∀ j, (s.setSlot i b).order j = s.order j) ∧
      (∀ j, (s.setSlot i b).serving j = s.serving j) ∧ (∀ j, (s.setSlot i b).served j = s.served j) ∧
      (∀ j, (s.setSlot i b).kindOf j = s.kindOf j) ∧ (s.setSlot i b).escalationOn = s.escalationOn ∧
      (s.setSlot i b).windowFromW = s.windowFromW :=
  ⟨fun _ => rfl, fun _ => rfl, fun _ => rfl, fun _ => rfl, fun _ => rfl, fun _ => rfl, fun _ => rfl, rfl, rfl⟩

/-- Changing one counter leaves what is read from the rest. -/
@[simp] theorem State.setCounter_views (s : State) (c : CtxId) (n : Nat) :
    (∀ i, (s.setCounter c n).ctx i = s.ctx i) ∧ (∀ i, (s.setCounter c n).port i = s.port i) ∧
      (∀ i, (s.setCounter c n).reads i = s.reads i) ∧ (∀ i, (s.setCounter c n).order i = s.order i) ∧
      (∀ i, (s.setCounter c n).serving i = s.serving i) ∧ (∀ i, (s.setCounter c n).served i = s.served i) ∧
      (∀ i, (s.setCounter c n).kindOf i = s.kindOf i) ∧ (s.setCounter c n).escalationOn = s.escalationOn ∧
      (s.setCounter c n).windowFromW = s.windowFromW :=
  ⟨fun _ => rfl, fun _ => rfl, fun _ => rfl, fun _ => rfl, fun _ => rfl, fun _ => rfl, fun _ => rfl, rfl, rfl⟩

/-- Changing the age list leaves what is read from the rest. -/
@[simp] theorem State.setAges_views (s : State) (l : List CtxId) :
    (∀ i, (s.setAges l).ctx i = s.ctx i) ∧ (∀ i, (s.setAges l).port i = s.port i) ∧
      (∀ i, (s.setAges l).reads i = s.reads i) ∧ (∀ i, (s.setAges l).order i = s.order i) ∧
      (∀ i, (s.setAges l).serving i = s.serving i) ∧ (∀ i, (s.setAges l).served i = s.served i) ∧
      (∀ i, (s.setAges l).kindOf i = s.kindOf i) ∧ (s.setAges l).escalationOn = s.escalationOn ∧
      (s.setAges l).windowFromW = s.windowFromW :=
  ⟨fun _ => rfl, fun _ => rfl, fun _ => rfl, fun _ => rfl, fun _ => rfl, fun _ => rfl, fun _ => rfl, rfl, rfl⟩

/-- Changing the job queue leaves what is read from the rest. -/
@[simp] theorem State.setJobs_views (s : State) (l : List Job) :
    (∀ i, (s.setJobs l).ctx i = s.ctx i) ∧ (∀ i, (s.setJobs l).port i = s.port i) ∧
      (∀ i, (s.setJobs l).reads i = s.reads i) ∧ (∀ i, (s.setJobs l).order i = s.order i) ∧
      (∀ i, (s.setJobs l).serving i = s.serving i) ∧ (∀ i, (s.setJobs l).served i = s.served i) ∧
      (∀ i, (s.setJobs l).kindOf i = s.kindOf i) ∧ (s.setJobs l).escalationOn = s.escalationOn ∧
      (s.setJobs l).windowFromW = s.windowFromW :=
  ⟨fun _ => rfl, fun _ => rfl, fun _ => rfl, fun _ => rfl, fun _ => rfl, fun _ => rfl, fun _ => rfl, rfl, rfl⟩

/-- Changing the token and its timer leaves what is read from the rest. -/
@[simp] theorem State.setToken_views (s : State) (t : Token) (w : Option Nat) :
    (∀ i, (s.setToken t w).ctx i = s.ctx i) ∧ (∀ i, (s.setToken t w).port i = s.port i) ∧
      (∀ i, (s.setToken t w).reads i = s.reads i) ∧ (∀ i, (s.setToken t w).order i = s.order i) ∧
      (∀ i, (s.setToken t w).serving i = s.serving i) ∧ (∀ i, (s.setToken t w).served i = s.served i) ∧
      (∀ i, (s.setToken t w).kindOf i = s.kindOf i) ∧ (s.setToken t w).escalationOn = s.escalationOn ∧
      (s.setToken t w).windowFromW = s.windowFromW :=
  ⟨fun _ => rfl, fun _ => rfl, fun _ => rfl, fun _ => rfl, fun _ => rfl, fun _ => rfl, fun _ => rfl, rfl, rfl⟩

/-- Changing the priority queue leaves what is read from the rest. -/
@[simp] theorem State.setQueue_views (s : State) (l : List CtxId) :
    (∀ i, (s.setQueue l).ctx i = s.ctx i) ∧ (∀ i, (s.setQueue l).port i = s.port i) ∧
      (∀ i, (s.setQueue l).reads i = s.reads i) ∧ (∀ i, (s.setQueue l).order i = s.order i) ∧
      (∀ i, (s.setQueue l).serving i = s.serving i) ∧ (∀ i, (s.setQueue l).served i = s.served i) ∧
      (∀ i, (s.setQueue l).kindOf i = s.kindOf i) ∧ (s.setQueue l).escalationOn = s.escalationOn ∧
      (s.setQueue l).windowFromW = s.windowFromW :=
  ⟨fun _ => rfl, fun _ => rfl, fun _ => rfl, fun _ => rfl, fun _ => rfl, fun _ => rfl, fun _ => rfl, rfl, rfl⟩

/-- Changing the bus leaves what is read from the rest. -/
@[simp] theorem State.setBus_views (s : State) (b : Option BusBurst) :
    (∀ i, (s.setBus b).ctx i = s.ctx i) ∧ (∀ i, (s.setBus b).port i = s.port i) ∧
      (∀ i, (s.setBus b).reads i = s.reads i) ∧ (∀ i, (s.setBus b).order i = s.order i) ∧
      (∀ i, (s.setBus b).serving i = s.serving i) ∧ (∀ i, (s.setBus b).served i = s.served i) ∧
      (∀ i, (s.setBus b).kindOf i = s.kindOf i) ∧ (s.setBus b).escalationOn = s.escalationOn ∧
      (s.setBus b).windowFromW = s.windowFromW :=
  ⟨fun _ => rfl, fun _ => rfl, fun _ => rfl, fun _ => rfl, fun _ => rfl, fun _ => rfl, fun _ => rfl, rfl, rfl⟩

/-- Changing the last winner leaves what is read from the rest. -/
@[simp] theorem State.setPointer_views (s : State) (r : Requester) :
    (∀ i, (s.setPointer r).ctx i = s.ctx i) ∧ (∀ i, (s.setPointer r).port i = s.port i) ∧
      (∀ i, (s.setPointer r).reads i = s.reads i) ∧ (∀ i, (s.setPointer r).order i = s.order i) ∧
      (∀ i, (s.setPointer r).serving i = s.serving i) ∧ (∀ i, (s.setPointer r).served i = s.served i) ∧
      (∀ i, (s.setPointer r).kindOf i = s.kindOf i) ∧ (s.setPointer r).escalationOn = s.escalationOn ∧
      (s.setPointer r).windowFromW = s.windowFromW :=
  ⟨fun _ => rfl, fun _ => rfl, fun _ => rfl, fun _ => rfl, fun _ => rfl, fun _ => rfl, fun _ => rfl, rfl, rfl⟩

/-- Changing the writes in flight leaves what is read from the rest. -/
@[simp] theorem State.setInFlight_views (s : State) (l : List (PortId × Line)) :
    (∀ i, (s.setInFlight l).ctx i = s.ctx i) ∧ (∀ i, (s.setInFlight l).port i = s.port i) ∧
      (∀ i, (s.setInFlight l).reads i = s.reads i) ∧ (∀ i, (s.setInFlight l).order i = s.order i) ∧
      (∀ i, (s.setInFlight l).serving i = s.serving i) ∧ (∀ i, (s.setInFlight l).served i = s.served i) ∧
      (∀ i, (s.setInFlight l).kindOf i = s.kindOf i) ∧ (s.setInFlight l).escalationOn = s.escalationOn ∧
      (s.setInFlight l).windowFromW = s.windowFromW :=
  ⟨fun _ => rfl, fun _ => rfl, fun _ => rfl, fun _ => rfl, fun _ => rfl, fun _ => rfl, fun _ => rfl, rfl, rfl⟩

/-- Changing the bridge state leaves what is read from the rest. -/
@[simp] theorem State.setBridge_views (s : State) (b : Bridge) :
    (∀ i, (s.setBridge b).ctx i = s.ctx i) ∧ (∀ i, (s.setBridge b).port i = s.port i) ∧
      (∀ i, (s.setBridge b).reads i = s.reads i) ∧ (∀ i, (s.setBridge b).order i = s.order i) ∧
      (∀ i, (s.setBridge b).serving i = s.serving i) ∧ (∀ i, (s.setBridge b).served i = s.served i) ∧
      (∀ i, (s.setBridge b).kindOf i = s.kindOf i) ∧ (s.setBridge b).escalationOn = s.escalationOn ∧
      (s.setBridge b).windowFromW = s.windowFromW :=
  ⟨fun _ => rfl, fun _ => rfl, fun _ => rfl, fun _ => rfl, fun _ => rfl, fun _ => rfl, fun _ => rfl, rfl, rfl⟩

/-- Changing the free value's argument leaves what is read from the rest. -/
@[simp] theorem State.setFreeCount_views (s : State) (n : Nat) :
    (∀ i, (s.setFreeCount n).ctx i = s.ctx i) ∧ (∀ i, (s.setFreeCount n).port i = s.port i) ∧
      (∀ i, (s.setFreeCount n).reads i = s.reads i) ∧ (∀ i, (s.setFreeCount n).order i = s.order i) ∧
      (∀ i, (s.setFreeCount n).serving i = s.serving i) ∧ (∀ i, (s.setFreeCount n).served i = s.served i) ∧
      (∀ i, (s.setFreeCount n).kindOf i = s.kindOf i) ∧ (s.setFreeCount n).escalationOn = s.escalationOn ∧
      (s.setFreeCount n).windowFromW = s.windowFromW :=
  ⟨fun _ => rfl, fun _ => rfl, fun _ => rfl, fun _ => rfl, fun _ => rfl, fun _ => rfl, fun _ => rfl, rfl, rfl⟩

/-- Changing one standing request leaves what is read from the rest. -/
@[simp] theorem State.setReq_views (s : State) (p : PortId) (r : Option Request) :
    (∀ i, (s.setReq p r).ctx i = s.ctx i) ∧ (∀ i, (s.setReq p r).port i = s.port i) ∧
      (∀ i, (s.setReq p r).reads i = s.reads i) ∧ (∀ i, (s.setReq p r).order i = s.order i) ∧
      (∀ i, (s.setReq p r).serving i = s.serving i) ∧ (∀ i, (s.setReq p r).served i = s.served i) ∧
      (∀ i, (s.setReq p r).kindOf i = s.kindOf i) ∧ (s.setReq p r).escalationOn = s.escalationOn ∧
      (s.setReq p r).windowFromW = s.windowFromW :=
  ⟨fun _ => rfl, fun _ => rfl, fun _ => rfl, fun _ => rfl, fun _ => rfl, fun _ => rfl, fun _ => rfl, rfl, rfl⟩

/-- Changing a port's answers leaves what is read from the rest. -/
@[simp] theorem State.respond_views (s : State) (p : PortId) (as : List Answer) :
    (∀ i, (s.respond p as).ctx i = s.ctx i) ∧ (∀ i, (s.respond p as).reads i = s.reads i) ∧
      (∀ i, (s.respond p as).order i = s.order i) ∧ (∀ i, (s.respond p as).serving i = s.serving i) ∧
      (∀ i, (s.respond p as).served i = s.served i) ∧ (∀ i, (s.respond p as).kindOf i = s.kindOf i) ∧
      (s.respond p as).escalationOn = s.escalationOn ∧ (s.respond p as).windowFromW = s.windowFromW :=
  ⟨fun _ => rfl, fun _ => rfl, fun _ => rfl, fun _ => rfl, fun _ => rfl, fun _ => rfl, rfl, rfl⟩

/-- Changing a port's cycle in progress leaves what is read from the rest. -/
@[simp] theorem State.setCycle_views (s : State) (p : PortId) (c : Option Cycle) :
    (∀ i, (s.setCycle p c).ctx i = s.ctx i) ∧ (∀ i, (s.setCycle p c).reads i = s.reads i) ∧
      (∀ i, (s.setCycle p c).order i = s.order i) ∧ (∀ i, (s.setCycle p c).serving i = s.serving i) ∧
      (∀ i, (s.setCycle p c).served i = s.served i) ∧ (∀ i, (s.setCycle p c).kindOf i = s.kindOf i) ∧
      (s.setCycle p c).escalationOn = s.escalationOn ∧ (s.setCycle p c).windowFromW = s.windowFromW :=
  ⟨fun _ => rfl, fun _ => rfl, fun _ => rfl, fun _ => rfl, fun _ => rfl, fun _ => rfl, rfl, rfl⟩

/-- Changing a port's pair leaves what is read from the rest. -/
@[simp] theorem State.setPair_views (s : State) (p : PortId) (l : Option Line) :
    (∀ i, (s.setPair p l).ctx i = s.ctx i) ∧ (∀ i, (s.setPair p l).reads i = s.reads i) ∧
      (∀ i, (s.setPair p l).order i = s.order i) ∧ (∀ i, (s.setPair p l).serving i = s.serving i) ∧
      (∀ i, (s.setPair p l).served i = s.served i) ∧ (∀ i, (s.setPair p l).kindOf i = s.kindOf i) ∧
      (s.setPair p l).escalationOn = s.escalationOn ∧ (s.setPair p l).windowFromW = s.windowFromW :=
  ⟨fun _ => rfl, fun _ => rfl, fun _ => rfl, fun _ => rfl, fun _ => rfl, fun _ => rfl, rfl, rfl⟩

/-- Changing a port's flags leaves what is read from the rest. -/
@[simp] theorem State.setFlag_views (s : State) (p : PortId) (f : Flag) :
    (∀ i, (s.setFlag p f).ctx i = s.ctx i) ∧ (∀ i, (s.setFlag p f).reads i = s.reads i) ∧
      (∀ i, (s.setFlag p f).order i = s.order i) ∧ (∀ i, (s.setFlag p f).serving i = s.serving i) ∧
      (∀ i, (s.setFlag p f).served i = s.served i) ∧ (∀ i, (s.setFlag p f).kindOf i = s.kindOf i) ∧
      (s.setFlag p f).escalationOn = s.escalationOn ∧ (s.setFlag p f).windowFromW = s.windowFromW :=
  ⟨fun _ => rfl, fun _ => rfl, fun _ => rfl, fun _ => rfl, fun _ => rfl, fun _ => rfl, rfl, rfl⟩

/-- Changing a port's flags leaves what is read from the rest. -/
@[simp] theorem State.clearFlags_views (s : State) (p : PortId) (m : BitVec 8) :
    (∀ i, (s.clearFlags p m).ctx i = s.ctx i) ∧ (∀ i, (s.clearFlags p m).reads i = s.reads i) ∧
      (∀ i, (s.clearFlags p m).order i = s.order i) ∧ (∀ i, (s.clearFlags p m).serving i = s.serving i) ∧
      (∀ i, (s.clearFlags p m).served i = s.served i) ∧ (∀ i, (s.clearFlags p m).kindOf i = s.kindOf i) ∧
      (s.clearFlags p m).escalationOn = s.escalationOn ∧ (s.clearFlags p m).windowFromW = s.windowFromW :=
  ⟨fun _ => rfl, fun _ => rfl, fun _ => rfl, fun _ => rfl, fun _ => rfl, fun _ => rfl, rfl, rfl⟩

/-- Changing a port's answers leaves what is read from the rest. -/
@[simp] theorem State.beginCycle_views (s : State) (p : PortId) :
    (∀ i, (s.beginCycle p).ctx i = s.ctx i) ∧ (∀ i, (s.beginCycle p).reads i = s.reads i) ∧
      (∀ i, (s.beginCycle p).order i = s.order i) ∧ (∀ i, (s.beginCycle p).serving i = s.serving i) ∧
      (∀ i, (s.beginCycle p).served i = s.served i) ∧ (∀ i, (s.beginCycle p).kindOf i = s.kindOf i) ∧
      (s.beginCycle p).escalationOn = s.escalationOn ∧ (s.beginCycle p).windowFromW = s.windowFromW :=
  ⟨fun _ => rfl, fun _ => rfl, fun _ => rfl, fun _ => rfl, fun _ => rfl, fun _ => rfl, rfl, rfl⟩

/-! ### Reading the part just updated -/

@[simp] theorem State.ctx_setCtx (s : State) (c d : CtxId) (x : Context) :
    (s.setCtx c x).ctx d = if d = c then x else s.ctx d := Four.get_set ..

@[simp] theorem State.port_setPort (s : State) (p q : PortId) (x : PortState) :
    (s.setPort p x).port q = if q = p then x else s.port q := Four.get_set ..

@[simp] theorem State.reads_setReads (s : State) (c d : CtxId) (l : List Line) :
    (s.setReads c l).reads d = if d = c then l else s.reads d := Four.get_set ..

@[simp] theorem State.order_setOrder (s : State) (c d : CtxId) (l : List SlotId) :
    (s.setOrder c l).order d = if d = c then l else s.order d := Four.get_set ..

@[simp] theorem State.port_respond (s : State) (p q : PortId) (as : List Answer) :
    (s.respond p as).port q = if q = p then { s.port p with answers := (s.port p).answers ++ as } else s.port q :=
  Four.get_set ..

@[simp] theorem State.port_setCycle (s : State) (p q : PortId) (c : Option Cycle) :
    (s.setCycle p c).port q = if q = p then { s.port p with cycle := c } else s.port q := Four.get_set ..

@[simp] theorem State.port_setPair (s : State) (p q : PortId) (l : Option Line) :
    (s.setPair p l).port q = if q = p then { s.port p with pair := l } else s.port q := Four.get_set ..

@[simp] theorem State.port_setFlag (s : State) (p q : PortId) (f : Flag) :
    (s.setFlag p f).port q = if q = p then { s.port p with flags := (s.port p).flags ||| f.word } else s.port q :=
  Four.get_set ..

@[simp] theorem State.port_clearFlags (s : State) (p q : PortId) (m : BitVec 8) :
    (s.clearFlags p m).port q =
      if q = p then { s.port p with flags := (s.port p).flags &&& ~~~m } else s.port q := Four.get_set ..

@[simp] theorem State.port_beginCycle (s : State) (p q : PortId) :
    (s.beginCycle p).port q = if q = p then { s.port p with answers := [] } else s.port q := Four.get_set ..

/-! ### The part just set reads as it was set -/

@[simp] theorem State.ages_setAges (s : State) (l : List CtxId) : (s.setAges l).ages = l := rfl

@[simp] theorem State.jobs_setJobs (s : State) (l : List Job) : (s.setJobs l).jobs = l := rfl

@[simp] theorem State.token_setToken (s : State) (t : Token) (w : Option Nat) : (s.setToken t w).token = t := rfl

@[simp] theorem State.window_setToken (s : State) (t : Token) (w : Option Nat) : (s.setToken t w).window = w := rfl

@[simp] theorem State.prioQueue_setQueue (s : State) (l : List CtxId) : (s.setQueue l).prioQueue = l := rfl

@[simp] theorem State.bus_setBus (s : State) (b : Option BusBurst) : (s.setBus b).bus = b := rfl

@[simp] theorem State.pointer_setPointer (s : State) (r : Requester) : (s.setPointer r).pointer = r := rfl

@[simp] theorem State.inFlight_setInFlight (s : State) (l : List (PortId × Line)) : (s.setInFlight l).inFlight = l := rfl

@[simp] theorem State.bridge_setBridge (s : State) (b : Bridge) : (s.setBridge b).bridge = b := rfl

@[simp] theorem State.freeCount_setFreeCount (s : State) (n : Nat) : (s.setFreeCount n).freeCount = n := rfl

@[simp] theorem State.slots_setSlots (s : State) (v : Vector (Option SlotBody) 48) : (s.setSlots v).slots = v := rfl

/-- A change that leaves the ports leaves every port. -/
theorem State.port_congr {s t : State} (h : t.ports = s.ports) (p : PortId) : t.port p = s.port p := by
  simp [State.port, h]

/-- A change that leaves the contexts leaves every context. -/
theorem State.ctx_congr {s t : State} (h : t.ctxs = s.ctxs) (c : CtxId) : t.ctx c = s.ctx c := by
  simp [State.ctx, h]

/-- The serving context depends on the pairing alone (R2). -/
theorem State.serving_congr {s t : State} (ha : t.joinA = s.joinA) (hb : t.joinB = s.joinB) (p : PortId) :
    t.serving p = s.serving p := by
  simp [State.serving, ha, hb]

end Sys2Proof.Machine
end

