-- ==== Sys2Proof/Laws/Abort.lean ====
section
/-! SUPPORT. The free orders, and what an abort leaves as it was: stated once for the Contention Unit's claims, the
abort, several aborts, and an invasion. -/

namespace Sys2Proof.Machine

/-! ### Free orders -/

/-- A free order has the same members, each as often. -/
theorem freeOrder_perm {α : Type} (n k : Nat) (l : List α) : (freeOrder n k l).Perm l := by
  induction n generalizing k l with
  | zero => rcases l with _ | ⟨a, _ | ⟨b, l⟩⟩ <;> simp [freeOrder]
  | succ n ih =>
    rcases l with _ | ⟨a, _ | ⟨b, l⟩⟩
    · simp [freeOrder]
    · simp [freeOrder]
    · simp only [freeOrder]
      have hlt : Config.choice k % (a :: b :: l).length < (a :: b :: l).length := Nat.mod_lt _ (by simp)
      generalize Config.choice k % (a :: b :: l).length = i at hlt
      rw [List.getElem?_eq_getElem hlt]
      simp only [Option.toList_some, List.singleton_append]
      refine List.Perm.trans (List.Perm.cons _ (ih _ _)) ?_
      exact List.getElem_cons_eraseIdx_perm hlt

/-- The members of a free order. -/
theorem mem_freeOrder {α : Type} {n k : Nat} {l : List α} {a : α} : a ∈ freeOrder n k l ↔ a ∈ l :=
  (freeOrder_perm n k l).mem_iff

/-! ### Folds -/

/-- What every step of a fold leaves as it is, the fold leaves as it is. -/
theorem foldl_keeps {α β γ : Type} (f : β → γ) (g : β → α → β) (h : ∀ t a, f (g t a) = f t) (l : List α) (s : β) :
    f (l.foldl g s) = f s := by
  induction l generalizing s with
  | nil => rfl
  | cons a l ih => rw [List.foldl_cons, ih, h]

/-- What every step of a fold keeps true, the fold keeps true. -/
theorem foldl_invariant {α β : Type} (P : β → Prop) (g : β → α → β) (l : List α)
    (h : ∀ t, ∀ a ∈ l, P t → P (g t a)) (s : β) (hs : P s) : P (l.foldl g s) := by
  induction l generalizing s with
  | nil => exact hs
  | cons a l ih =>
    exact ih (fun t b hb => h t b (List.mem_cons_of_mem a hb)) _ (h s a (List.mem_cons_self ..) hs)

/-! ### The Contention Unit -/

/-- Granting the token changes token, queue and timer alone (R135). -/
@[simp] theorem State.grantToken_frame (s : State)  :
    s.grantToken.ctxs = s.ctxs ∧ s.grantToken.ages = s.ages ∧ s.grantToken.readSets = s.readSets ∧
      s.grantToken.inFlight = s.inFlight ∧ s.grantToken.slots = s.slots ∧ s.grantToken.orders = s.orders ∧
      s.grantToken.caps = s.caps ∧ s.grantToken.jobs = s.jobs ∧ s.grantToken.counters = s.counters ∧
      s.grantToken.threshold = s.threshold ∧ s.grantToken.windowLen = s.windowLen ∧ s.grantToken.ports = s.ports ∧
      s.grantToken.tickSource = s.tickSource ∧ s.grantToken.divisor = s.divisor ∧
      s.grantToken.tickLevel = s.tickLevel ∧ s.grantToken.lifetimes = s.lifetimes ∧
      s.grantToken.regions = s.regions ∧ s.grantToken.bus = s.bus ∧ s.grantToken.reqs = s.reqs ∧
      s.grantToken.pointer = s.pointer ∧ s.grantToken.cfgPort = s.cfgPort ∧ s.grantToken.joinA = s.joinA ∧
      s.grantToken.joinB = s.joinB ∧ s.grantToken.masks = s.masks ∧ s.grantToken.bridge = s.bridge ∧
      s.grantToken.qreq = s.qreq ∧ s.grantToken.rst = s.rst ∧ s.grantToken.freeCount = s.freeCount ∧
      s.grantToken.pending = s.pending ∧ (∀ i, s.grantToken.ctx i = s.ctx i) ∧
      (∀ i, s.grantToken.port i = s.port i) ∧ (∀ i, s.grantToken.reads i = s.reads i) ∧
      (∀ i, s.grantToken.order i = s.order i) ∧ (∀ i, s.grantToken.serving i = s.serving i) ∧
      (∀ i, s.grantToken.served i = s.served i) ∧ (∀ i, s.grantToken.kindOf i = s.kindOf i) ∧
      s.grantToken.escalationOn = s.escalationOn ∧ s.grantToken.windowFromW = s.windowFromW := by
  unfold State.grantToken
  split
  · split <;> simp
  · simp

/-- Freeing the token changes token and timer alone (R139). -/
@[simp] theorem State.freeToken_frame (s : State)  :
    s.freeToken.ctxs = s.ctxs ∧ s.freeToken.ages = s.ages ∧ s.freeToken.readSets = s.readSets ∧
      s.freeToken.inFlight = s.inFlight ∧ s.freeToken.slots = s.slots ∧ s.freeToken.orders = s.orders ∧
      s.freeToken.caps = s.caps ∧ s.freeToken.jobs = s.jobs ∧ s.freeToken.counters = s.counters ∧
      s.freeToken.prioQueue = s.prioQueue ∧ s.freeToken.threshold = s.threshold ∧
      s.freeToken.windowLen = s.windowLen ∧ s.freeToken.ports = s.ports ∧ s.freeToken.tickSource = s.tickSource ∧
      s.freeToken.divisor = s.divisor ∧ s.freeToken.tickLevel = s.tickLevel ∧
      s.freeToken.lifetimes = s.lifetimes ∧ s.freeToken.regions = s.regions ∧ s.freeToken.bus = s.bus ∧
      s.freeToken.reqs = s.reqs ∧ s.freeToken.pointer = s.pointer ∧ s.freeToken.cfgPort = s.cfgPort ∧
      s.freeToken.joinA = s.joinA ∧ s.freeToken.joinB = s.joinB ∧ s.freeToken.masks = s.masks ∧
      s.freeToken.bridge = s.bridge ∧ s.freeToken.qreq = s.qreq ∧ s.freeToken.rst = s.rst ∧
      s.freeToken.freeCount = s.freeCount ∧ s.freeToken.pending = s.pending ∧ (∀ i, s.freeToken.ctx i = s.ctx i) ∧
      (∀ i, s.freeToken.port i = s.port i) ∧ (∀ i, s.freeToken.reads i = s.reads i) ∧
      (∀ i, s.freeToken.order i = s.order i) ∧ (∀ i, s.freeToken.serving i = s.serving i) ∧
      (∀ i, s.freeToken.served i = s.served i) ∧ (∀ i, s.freeToken.kindOf i = s.kindOf i) ∧
      s.freeToken.escalationOn = s.escalationOn ∧ s.freeToken.windowFromW = s.windowFromW := by
  unfold State.freeToken
  simp

/-- Counting changes a counter alone (R133). -/
@[simp] theorem State.countAbort_frame (s : State) (c : CtxId) (b : Bool) :
    (s.countAbort c b).ctxs = s.ctxs ∧ (s.countAbort c b).ages = s.ages ∧
      (s.countAbort c b).readSets = s.readSets ∧ (s.countAbort c b).inFlight = s.inFlight ∧
      (s.countAbort c b).slots = s.slots ∧ (s.countAbort c b).orders = s.orders ∧
      (s.countAbort c b).caps = s.caps ∧ (s.countAbort c b).jobs = s.jobs ∧
      (s.countAbort c b).prioQueue = s.prioQueue ∧ (s.countAbort c b).token = s.token ∧
      (s.countAbort c b).window = s.window ∧ (s.countAbort c b).threshold = s.threshold ∧
      (s.countAbort c b).windowLen = s.windowLen ∧ (s.countAbort c b).ports = s.ports ∧
      (s.countAbort c b).tickSource = s.tickSource ∧ (s.countAbort c b).divisor = s.divisor ∧
      (s.countAbort c b).tickLevel = s.tickLevel ∧ (s.countAbort c b).lifetimes = s.lifetimes ∧
      (s.countAbort c b).regions = s.regions ∧ (s.countAbort c b).bus = s.bus ∧ (s.countAbort c b).reqs = s.reqs ∧
      (s.countAbort c b).pointer = s.pointer ∧ (s.countAbort c b).cfgPort = s.cfgPort ∧
      (s.countAbort c b).joinA = s.joinA ∧ (s.countAbort c b).joinB = s.joinB ∧
      (s.countAbort c b).masks = s.masks ∧ (s.countAbort c b).bridge = s.bridge ∧
      (s.countAbort c b).qreq = s.qreq ∧ (s.countAbort c b).rst = s.rst ∧
      (s.countAbort c b).freeCount = s.freeCount ∧ (s.countAbort c b).pending = s.pending ∧
      (∀ i, (s.countAbort c b).ctx i = s.ctx i) ∧ (∀ i, (s.countAbort c b).port i = s.port i) ∧
      (∀ i, (s.countAbort c b).reads i = s.reads i) ∧ (∀ i, (s.countAbort c b).order i = s.order i) ∧
      (∀ i, (s.countAbort c b).serving i = s.serving i) ∧ (∀ i, (s.countAbort c b).served i = s.served i) ∧
      (∀ i, (s.countAbort c b).kindOf i = s.kindOf i) ∧ (s.countAbort c b).escalationOn = s.escalationOn ∧
      (s.countAbort c b).windowFromW = s.windowFromW := by
  unfold State.countAbort
  split <;> simp

/-- An abort notice changes counters, token, queue and timer alone (R133). -/
@[simp] theorem State.abortNotice_frame (s : State) (c : CtxId) (code : AbortCode) (b : Bool) :
    (s.abortNotice c code b).ctxs = s.ctxs ∧ (s.abortNotice c code b).ages = s.ages ∧
      (s.abortNotice c code b).readSets = s.readSets ∧ (s.abortNotice c code b).inFlight = s.inFlight ∧
      (s.abortNotice c code b).slots = s.slots ∧ (s.abortNotice c code b).orders = s.orders ∧
      (s.abortNotice c code b).caps = s.caps ∧ (s.abortNotice c code b).jobs = s.jobs ∧
      (s.abortNotice c code b).threshold = s.threshold ∧ (s.abortNotice c code b).windowLen = s.windowLen ∧
      (s.abortNotice c code b).ports = s.ports ∧ (s.abortNotice c code b).tickSource = s.tickSource ∧
      (s.abortNotice c code b).divisor = s.divisor ∧ (s.abortNotice c code b).tickLevel = s.tickLevel ∧
      (s.abortNotice c code b).lifetimes = s.lifetimes ∧ (s.abortNotice c code b).regions = s.regions ∧
      (s.abortNotice c code b).bus = s.bus ∧ (s.abortNotice c code b).reqs = s.reqs ∧
      (s.abortNotice c code b).pointer = s.pointer ∧ (s.abortNotice c code b).cfgPort = s.cfgPort ∧
      (s.abortNotice c code b).joinA = s.joinA ∧ (s.abortNotice c code b).joinB = s.joinB ∧
      (s.abortNotice c code b).masks = s.masks ∧ (s.abortNotice c code b).bridge = s.bridge ∧
      (s.abortNotice c code b).qreq = s.qreq ∧ (s.abortNotice c code b).rst = s.rst ∧
      (s.abortNotice c code b).freeCount = s.freeCount ∧ (s.abortNotice c code b).pending = s.pending ∧
      (∀ i, (s.abortNotice c code b).ctx i = s.ctx i) ∧ (∀ i, (s.abortNotice c code b).port i = s.port i) ∧
      (∀ i, (s.abortNotice c code b).reads i = s.reads i) ∧ (∀ i, (s.abortNotice c code b).order i = s.order i) ∧
      (∀ i, (s.abortNotice c code b).serving i = s.serving i) ∧
      (∀ i, (s.abortNotice c code b).served i = s.served i) ∧
      (∀ i, (s.abortNotice c code b).kindOf i = s.kindOf i) ∧
      (s.abortNotice c code b).escalationOn = s.escalationOn ∧
      (s.abortNotice c code b).windowFromW = s.windowFromW := by
  unfold State.abortNotice
  simp only
  split <;> split <;> simp

/-- A commit notice changes counters, token, queue and timer alone (R134). -/
@[simp] theorem State.commitNotice_frame (s : State) (c : CtxId) :
    (s.commitNotice c).ctxs = s.ctxs ∧ (s.commitNotice c).ages = s.ages ∧
      (s.commitNotice c).readSets = s.readSets ∧ (s.commitNotice c).inFlight = s.inFlight ∧
      (s.commitNotice c).slots = s.slots ∧ (s.commitNotice c).orders = s.orders ∧
      (s.commitNotice c).caps = s.caps ∧ (s.commitNotice c).jobs = s.jobs ∧
      (s.commitNotice c).threshold = s.threshold ∧ (s.commitNotice c).windowLen = s.windowLen ∧
      (s.commitNotice c).ports = s.ports ∧ (s.commitNotice c).tickSource = s.tickSource ∧
      (s.commitNotice c).divisor = s.divisor ∧ (s.commitNotice c).tickLevel = s.tickLevel ∧
      (s.commitNotice c).lifetimes = s.lifetimes ∧ (s.commitNotice c).regions = s.regions ∧
      (s.commitNotice c).bus = s.bus ∧ (s.commitNotice c).reqs = s.reqs ∧ (s.commitNotice c).pointer = s.pointer ∧
      (s.commitNotice c).cfgPort = s.cfgPort ∧ (s.commitNotice c).joinA = s.joinA ∧
      (s.commitNotice c).joinB = s.joinB ∧ (s.commitNotice c).masks = s.masks ∧
      (s.commitNotice c).bridge = s.bridge ∧ (s.commitNotice c).qreq = s.qreq ∧ (s.commitNotice c).rst = s.rst ∧
      (s.commitNotice c).freeCount = s.freeCount ∧ (s.commitNotice c).pending = s.pending ∧
      (∀ i, (s.commitNotice c).ctx i = s.ctx i) ∧ (∀ i, (s.commitNotice c).port i = s.port i) ∧
      (∀ i, (s.commitNotice c).reads i = s.reads i) ∧ (∀ i, (s.commitNotice c).order i = s.order i) ∧
      (∀ i, (s.commitNotice c).serving i = s.serving i) ∧ (∀ i, (s.commitNotice c).served i = s.served i) ∧
      (∀ i, (s.commitNotice c).kindOf i = s.kindOf i) ∧ (s.commitNotice c).escalationOn = s.escalationOn ∧
      (s.commitNotice c).windowFromW = s.windowFromW := by
  unfold State.commitNotice
  simp only
  split <;> simp

/-- The notice of an OPEN changes token and timer alone (R136). -/
@[simp] theorem State.openNotice_frame (s : State) (c : CtxId) (b : Bool) :
    (s.openNotice c b).ctxs = s.ctxs ∧ (s.openNotice c b).ages = s.ages ∧
      (s.openNotice c b).readSets = s.readSets ∧ (s.openNotice c b).inFlight = s.inFlight ∧
      (s.openNotice c b).slots = s.slots ∧ (s.openNotice c b).orders = s.orders ∧
      (s.openNotice c b).caps = s.caps ∧ (s.openNotice c b).jobs = s.jobs ∧
      (s.openNotice c b).counters = s.counters ∧ (s.openNotice c b).prioQueue = s.prioQueue ∧
      (s.openNotice c b).threshold = s.threshold ∧ (s.openNotice c b).windowLen = s.windowLen ∧
      (s.openNotice c b).ports = s.ports ∧ (s.openNotice c b).tickSource = s.tickSource ∧
      (s.openNotice c b).divisor = s.divisor ∧ (s.openNotice c b).tickLevel = s.tickLevel ∧
      (s.openNotice c b).lifetimes = s.lifetimes ∧ (s.openNotice c b).regions = s.regions ∧
      (s.openNotice c b).bus = s.bus ∧ (s.openNotice c b).reqs = s.reqs ∧ (s.openNotice c b).pointer = s.pointer ∧
      (s.openNotice c b).cfgPort = s.cfgPort ∧ (s.openNotice c b).joinA = s.joinA ∧
      (s.openNotice c b).joinB = s.joinB ∧ (s.openNotice c b).masks = s.masks ∧
      (s.openNotice c b).bridge = s.bridge ∧ (s.openNotice c b).qreq = s.qreq ∧ (s.openNotice c b).rst = s.rst ∧
      (s.openNotice c b).freeCount = s.freeCount ∧ (s.openNotice c b).pending = s.pending ∧
      (∀ i, (s.openNotice c b).ctx i = s.ctx i) ∧ (∀ i, (s.openNotice c b).port i = s.port i) ∧
      (∀ i, (s.openNotice c b).reads i = s.reads i) ∧ (∀ i, (s.openNotice c b).order i = s.order i) ∧
      (∀ i, (s.openNotice c b).serving i = s.serving i) ∧ (∀ i, (s.openNotice c b).served i = s.served i) ∧
      (∀ i, (s.openNotice c b).kindOf i = s.kindOf i) ∧ (s.openNotice c b).escalationOn = s.escalationOn ∧
      (s.openNotice c b).windowFromW = s.windowFromW := by
  unfold State.openNotice
  split <;> simp

/-- Leaving escalation changes counters, token, queue and timer alone (R140). -/
@[simp] theorem State.leaveEscalation_frame (s : State) (c : CtxId) :
    (s.leaveEscalation c).ctxs = s.ctxs ∧ (s.leaveEscalation c).ages = s.ages ∧
      (s.leaveEscalation c).readSets = s.readSets ∧ (s.leaveEscalation c).inFlight = s.inFlight ∧
      (s.leaveEscalation c).slots = s.slots ∧ (s.leaveEscalation c).orders = s.orders ∧
      (s.leaveEscalation c).caps = s.caps ∧ (s.leaveEscalation c).jobs = s.jobs ∧
      (s.leaveEscalation c).threshold = s.threshold ∧ (s.leaveEscalation c).windowLen = s.windowLen ∧
      (s.leaveEscalation c).ports = s.ports ∧ (s.leaveEscalation c).tickSource = s.tickSource ∧
      (s.leaveEscalation c).divisor = s.divisor ∧ (s.leaveEscalation c).tickLevel = s.tickLevel ∧
      (s.leaveEscalation c).lifetimes = s.lifetimes ∧ (s.leaveEscalation c).regions = s.regions ∧
      (s.leaveEscalation c).bus = s.bus ∧ (s.leaveEscalation c).reqs = s.reqs ∧
      (s.leaveEscalation c).pointer = s.pointer ∧ (s.leaveEscalation c).cfgPort = s.cfgPort ∧
      (s.leaveEscalation c).joinA = s.joinA ∧ (s.leaveEscalation c).joinB = s.joinB ∧
      (s.leaveEscalation c).masks = s.masks ∧ (s.leaveEscalation c).bridge = s.bridge ∧
      (s.leaveEscalation c).qreq = s.qreq ∧ (s.leaveEscalation c).rst = s.rst ∧
      (s.leaveEscalation c).freeCount = s.freeCount ∧ (s.leaveEscalation c).pending = s.pending ∧
      (∀ i, (s.leaveEscalation c).ctx i = s.ctx i) ∧ (∀ i, (s.leaveEscalation c).port i = s.port i) ∧
      (∀ i, (s.leaveEscalation c).reads i = s.reads i) ∧ (∀ i, (s.leaveEscalation c).order i = s.order i) ∧
      (∀ i, (s.leaveEscalation c).serving i = s.serving i) ∧ (∀ i, (s.leaveEscalation c).served i = s.served i) ∧
      (∀ i, (s.leaveEscalation c).kindOf i = s.kindOf i) ∧ (s.leaveEscalation c).escalationOn = s.escalationOn ∧
      (s.leaveEscalation c).windowFromW = s.windowFromW := by
  unfold State.leaveEscalation
  simp only
  split <;> simp

/-- A window expiry changes token, queue and timer alone (R137). -/
@[simp] theorem State.windowExpires_frame (s : State)  :
    s.windowExpires.ctxs = s.ctxs ∧ s.windowExpires.ages = s.ages ∧ s.windowExpires.readSets = s.readSets ∧
      s.windowExpires.inFlight = s.inFlight ∧ s.windowExpires.slots = s.slots ∧
      s.windowExpires.orders = s.orders ∧ s.windowExpires.caps = s.caps ∧ s.windowExpires.jobs = s.jobs ∧
      s.windowExpires.counters = s.counters ∧ s.windowExpires.threshold = s.threshold ∧
      s.windowExpires.windowLen = s.windowLen ∧ s.windowExpires.ports = s.ports ∧
      s.windowExpires.tickSource = s.tickSource ∧ s.windowExpires.divisor = s.divisor ∧
      s.windowExpires.tickLevel = s.tickLevel ∧ s.windowExpires.lifetimes = s.lifetimes ∧
      s.windowExpires.regions = s.regions ∧ s.windowExpires.bus = s.bus ∧ s.windowExpires.reqs = s.reqs ∧
      s.windowExpires.pointer = s.pointer ∧ s.windowExpires.cfgPort = s.cfgPort ∧
      s.windowExpires.joinA = s.joinA ∧ s.windowExpires.joinB = s.joinB ∧ s.windowExpires.masks = s.masks ∧
      s.windowExpires.bridge = s.bridge ∧ s.windowExpires.qreq = s.qreq ∧ s.windowExpires.rst = s.rst ∧
      s.windowExpires.freeCount = s.freeCount ∧ s.windowExpires.pending = s.pending ∧
      (∀ i, s.windowExpires.ctx i = s.ctx i) ∧ (∀ i, s.windowExpires.port i = s.port i) ∧
      (∀ i, s.windowExpires.reads i = s.reads i) ∧ (∀ i, s.windowExpires.order i = s.order i) ∧
      (∀ i, s.windowExpires.serving i = s.serving i) ∧ (∀ i, s.windowExpires.served i = s.served i) ∧
      (∀ i, s.windowExpires.kindOf i = s.kindOf i) ∧ s.windowExpires.escalationOn = s.escalationOn ∧
      s.windowExpires.windowFromW = s.windowFromW := by
  unfold State.windowExpires
  simp

/-- A tick at the window timer changes token, queue and timer alone (R137). -/
@[simp] theorem State.windowTick_frame (s : State)  :
    s.windowTick.ctxs = s.ctxs ∧ s.windowTick.ages = s.ages ∧ s.windowTick.readSets = s.readSets ∧
      s.windowTick.inFlight = s.inFlight ∧ s.windowTick.slots = s.slots ∧ s.windowTick.orders = s.orders ∧
      s.windowTick.caps = s.caps ∧ s.windowTick.jobs = s.jobs ∧ s.windowTick.counters = s.counters ∧
      s.windowTick.threshold = s.threshold ∧ s.windowTick.windowLen = s.windowLen ∧ s.windowTick.ports = s.ports ∧
      s.windowTick.tickSource = s.tickSource ∧ s.windowTick.divisor = s.divisor ∧
      s.windowTick.tickLevel = s.tickLevel ∧ s.windowTick.lifetimes = s.lifetimes ∧
      s.windowTick.regions = s.regions ∧ s.windowTick.bus = s.bus ∧ s.windowTick.reqs = s.reqs ∧
      s.windowTick.pointer = s.pointer ∧ s.windowTick.cfgPort = s.cfgPort ∧ s.windowTick.joinA = s.joinA ∧
      s.windowTick.joinB = s.joinB ∧ s.windowTick.masks = s.masks ∧ s.windowTick.bridge = s.bridge ∧
      s.windowTick.qreq = s.qreq ∧ s.windowTick.rst = s.rst ∧ s.windowTick.freeCount = s.freeCount ∧
      s.windowTick.pending = s.pending ∧ (∀ i, s.windowTick.ctx i = s.ctx i) ∧
      (∀ i, s.windowTick.port i = s.port i) ∧ (∀ i, s.windowTick.reads i = s.reads i) ∧
      (∀ i, s.windowTick.order i = s.order i) ∧ (∀ i, s.windowTick.serving i = s.serving i) ∧
      (∀ i, s.windowTick.served i = s.served i) ∧ (∀ i, s.windowTick.kindOf i = s.kindOf i) ∧
      s.windowTick.escalationOn = s.escalationOn ∧ s.windowTick.windowFromW = s.windowFromW := by
  unfold State.windowTick
  split
  · simp
  · split
    · simp
    · split <;> simp

/-! ### Flags of several ports -/

/-- Setting a flag on several ports changes the ports alone (R178). -/
@[simp] theorem State.setFlags_frame (s : State) (ps : List PortId) (f : Flag) :
    (s.setFlags ps f).ctxs = s.ctxs ∧ (s.setFlags ps f).ages = s.ages ∧ (s.setFlags ps f).readSets = s.readSets ∧
      (s.setFlags ps f).inFlight = s.inFlight ∧ (s.setFlags ps f).slots = s.slots ∧
      (s.setFlags ps f).orders = s.orders ∧ (s.setFlags ps f).caps = s.caps ∧ (s.setFlags ps f).jobs = s.jobs ∧
      (s.setFlags ps f).counters = s.counters ∧ (s.setFlags ps f).prioQueue = s.prioQueue ∧
      (s.setFlags ps f).token = s.token ∧ (s.setFlags ps f).window = s.window ∧
      (s.setFlags ps f).threshold = s.threshold ∧ (s.setFlags ps f).windowLen = s.windowLen ∧
      (s.setFlags ps f).tickSource = s.tickSource ∧ (s.setFlags ps f).divisor = s.divisor ∧
      (s.setFlags ps f).tickLevel = s.tickLevel ∧ (s.setFlags ps f).lifetimes = s.lifetimes ∧
      (s.setFlags ps f).regions = s.regions ∧ (s.setFlags ps f).bus = s.bus ∧ (s.setFlags ps f).reqs = s.reqs ∧
      (s.setFlags ps f).pointer = s.pointer ∧ (s.setFlags ps f).cfgPort = s.cfgPort ∧
      (s.setFlags ps f).joinA = s.joinA ∧ (s.setFlags ps f).joinB = s.joinB ∧ (s.setFlags ps f).masks = s.masks ∧
      (s.setFlags ps f).bridge = s.bridge ∧ (s.setFlags ps f).qreq = s.qreq ∧ (s.setFlags ps f).rst = s.rst ∧
      (s.setFlags ps f).freeCount = s.freeCount ∧ (s.setFlags ps f).pending = s.pending ∧
      (∀ i, (s.setFlags ps f).ctx i = s.ctx i) ∧ (∀ i, (s.setFlags ps f).reads i = s.reads i) ∧
      (∀ i, (s.setFlags ps f).order i = s.order i) ∧ (∀ i, (s.setFlags ps f).serving i = s.serving i) ∧
      (∀ i, (s.setFlags ps f).served i = s.served i) ∧ (∀ i, (s.setFlags ps f).kindOf i = s.kindOf i) ∧
      (s.setFlags ps f).escalationOn = s.escalationOn ∧ (s.setFlags ps f).windowFromW = s.windowFromW := by
  unfold State.setFlags
  induction ps generalizing s with
  | nil => simp
  | cons p ps ih =>
    rw [List.foldl_cons]
    have h := ih (s.setFlag p f)
    simp only [State.setFlag_frame, State.setFlag_views] at h
    exact h

/-- Setting a flag on several ports leaves all but their flags: each port keeps its cycle, pair, pending record
address, pin and answers. -/
theorem State.port_setFlags (s : State) (ps : List PortId) (f : Flag) (q : PortId) :
    ((s.setFlags ps f).port q) = { s.port q with flags := ((s.setFlags ps f).port q).flags } := by
  unfold State.setFlags
  induction ps generalizing s with
  | nil => rfl
  | cons p ps ih =>
    rw [List.foldl_cons, ih]
    simp only [State.port_setFlag]
    split
    · rename_i h; subst h; rfl
    · rfl

/-! ### Slots -/

/-- Freeing a context's slots changes slots and lists alone (R67). -/
@[simp] theorem State.freeSlots_frame (s : State) (c : CtxId) :
    (s.freeSlots c).ctxs = s.ctxs ∧ (s.freeSlots c).ages = s.ages ∧ (s.freeSlots c).readSets = s.readSets ∧
      (s.freeSlots c).inFlight = s.inFlight ∧ (s.freeSlots c).caps = s.caps ∧ (s.freeSlots c).jobs = s.jobs ∧
      (s.freeSlots c).counters = s.counters ∧ (s.freeSlots c).prioQueue = s.prioQueue ∧
      (s.freeSlots c).token = s.token ∧ (s.freeSlots c).window = s.window ∧
      (s.freeSlots c).threshold = s.threshold ∧ (s.freeSlots c).windowLen = s.windowLen ∧
      (s.freeSlots c).ports = s.ports ∧ (s.freeSlots c).tickSource = s.tickSource ∧
      (s.freeSlots c).divisor = s.divisor ∧ (s.freeSlots c).tickLevel = s.tickLevel ∧
      (s.freeSlots c).lifetimes = s.lifetimes ∧ (s.freeSlots c).regions = s.regions ∧
      (s.freeSlots c).bus = s.bus ∧ (s.freeSlots c).reqs = s.reqs ∧ (s.freeSlots c).pointer = s.pointer ∧
      (s.freeSlots c).cfgPort = s.cfgPort ∧ (s.freeSlots c).joinA = s.joinA ∧ (s.freeSlots c).joinB = s.joinB ∧
      (s.freeSlots c).masks = s.masks ∧ (s.freeSlots c).bridge = s.bridge ∧ (s.freeSlots c).qreq = s.qreq ∧
      (s.freeSlots c).rst = s.rst ∧ (s.freeSlots c).freeCount = s.freeCount ∧
      (s.freeSlots c).pending = s.pending ∧ (∀ i, (s.freeSlots c).ctx i = s.ctx i) ∧
      (∀ i, (s.freeSlots c).port i = s.port i) ∧ (∀ i, (s.freeSlots c).reads i = s.reads i) ∧
      (∀ i, (s.freeSlots c).serving i = s.serving i) ∧ (∀ i, (s.freeSlots c).served i = s.served i) ∧
      (∀ i, (s.freeSlots c).kindOf i = s.kindOf i) ∧ (s.freeSlots c).escalationOn = s.escalationOn ∧
      (s.freeSlots c).windowFromW = s.windowFromW := by
  simp [State.freeSlots]

/-- Locking a context's slots changes the slots alone (R66). -/
@[simp] theorem State.lockSlots_frame (s : State) (c : CtxId) :
    (s.lockSlots c).ctxs = s.ctxs ∧ (s.lockSlots c).ages = s.ages ∧ (s.lockSlots c).readSets = s.readSets ∧
      (s.lockSlots c).inFlight = s.inFlight ∧ (s.lockSlots c).orders = s.orders ∧ (s.lockSlots c).caps = s.caps ∧
      (s.lockSlots c).jobs = s.jobs ∧ (s.lockSlots c).counters = s.counters ∧
      (s.lockSlots c).prioQueue = s.prioQueue ∧ (s.lockSlots c).token = s.token ∧
      (s.lockSlots c).window = s.window ∧ (s.lockSlots c).threshold = s.threshold ∧
      (s.lockSlots c).windowLen = s.windowLen ∧ (s.lockSlots c).ports = s.ports ∧
      (s.lockSlots c).tickSource = s.tickSource ∧ (s.lockSlots c).divisor = s.divisor ∧
      (s.lockSlots c).tickLevel = s.tickLevel ∧ (s.lockSlots c).lifetimes = s.lifetimes ∧
      (s.lockSlots c).regions = s.regions ∧ (s.lockSlots c).bus = s.bus ∧ (s.lockSlots c).reqs = s.reqs ∧
      (s.lockSlots c).pointer = s.pointer ∧ (s.lockSlots c).cfgPort = s.cfgPort ∧
      (s.lockSlots c).joinA = s.joinA ∧ (s.lockSlots c).joinB = s.joinB ∧ (s.lockSlots c).masks = s.masks ∧
      (s.lockSlots c).bridge = s.bridge ∧ (s.lockSlots c).qreq = s.qreq ∧ (s.lockSlots c).rst = s.rst ∧
      (s.lockSlots c).freeCount = s.freeCount ∧ (s.lockSlots c).pending = s.pending ∧
      (∀ i, (s.lockSlots c).ctx i = s.ctx i) ∧ (∀ i, (s.lockSlots c).port i = s.port i) ∧
      (∀ i, (s.lockSlots c).reads i = s.reads i) ∧ (∀ i, (s.lockSlots c).order i = s.order i) ∧
      (∀ i, (s.lockSlots c).serving i = s.serving i) ∧ (∀ i, (s.lockSlots c).served i = s.served i) ∧
      (∀ i, (s.lockSlots c).kindOf i = s.kindOf i) ∧ (s.lockSlots c).escalationOn = s.escalationOn ∧
      (s.lockSlots c).windowFromW = s.windowFromW := by
  simp [State.lockSlots]

/-- A context becoming IDLE changes the contexts alone. -/
@[simp] theorem State.idle_frame (s : State) (c : CtxId) :
    (s.idle c).ages = s.ages ∧ (s.idle c).readSets = s.readSets ∧ (s.idle c).inFlight = s.inFlight ∧
      (s.idle c).slots = s.slots ∧ (s.idle c).orders = s.orders ∧ (s.idle c).caps = s.caps ∧
      (s.idle c).jobs = s.jobs ∧ (s.idle c).counters = s.counters ∧ (s.idle c).prioQueue = s.prioQueue ∧
      (s.idle c).token = s.token ∧ (s.idle c).window = s.window ∧ (s.idle c).threshold = s.threshold ∧
      (s.idle c).windowLen = s.windowLen ∧ (s.idle c).ports = s.ports ∧ (s.idle c).tickSource = s.tickSource ∧
      (s.idle c).divisor = s.divisor ∧ (s.idle c).tickLevel = s.tickLevel ∧ (s.idle c).lifetimes = s.lifetimes ∧
      (s.idle c).regions = s.regions ∧ (s.idle c).bus = s.bus ∧ (s.idle c).reqs = s.reqs ∧
      (s.idle c).pointer = s.pointer ∧ (s.idle c).cfgPort = s.cfgPort ∧ (s.idle c).joinA = s.joinA ∧
      (s.idle c).joinB = s.joinB ∧ (s.idle c).masks = s.masks ∧ (s.idle c).bridge = s.bridge ∧
      (s.idle c).qreq = s.qreq ∧ (s.idle c).rst = s.rst ∧ (s.idle c).freeCount = s.freeCount ∧
      (s.idle c).pending = s.pending ∧ (∀ i, (s.idle c).port i = s.port i) ∧
      (∀ i, (s.idle c).reads i = s.reads i) ∧ (∀ i, (s.idle c).order i = s.order i) ∧
      (∀ i, (s.idle c).serving i = s.serving i) ∧ (∀ i, (s.idle c).served i = s.served i) ∧
      (∀ i, (s.idle c).kindOf i = s.kindOf i) ∧ (s.idle c).escalationOn = s.escalationOn ∧
      (s.idle c).windowFromW = s.windowFromW := by
  simp [State.idle]

/-! ### The abort -/

/-- A request that finds its context not OPEN does nothing (R88). -/
theorem State.abort_not_open {s : State} {c : CtxId} (h : (s.ctx c).state ≠ .opened) (code : AbortCode)
    (cause : Option Addr) (party : Option Party) : s.abort c code cause party = s := if_neg h

/-- A request that finds its context OPEN is taken (R88). -/
theorem State.abort_open {s : State} {c : CtxId} (h : (s.ctx c).state = .opened) (code : AbortCode)
    (cause : Option Addr) (party : Option Party) : s.abort c code cause party = s.takeAbort c code cause party :=
  if_pos h

/-- Where an aborted context goes is written in its context and the job queue (R94, R99). -/
@[simp] theorem State.abortGoesTo_frame (s : State) (c : CtxId) (code : AbortCode) (i : Image) :
    (s.abortGoesTo c code i).ages = s.ages ∧ (s.abortGoesTo c code i).readSets = s.readSets ∧
      (s.abortGoesTo c code i).inFlight = s.inFlight ∧ (s.abortGoesTo c code i).slots = s.slots ∧
      (s.abortGoesTo c code i).orders = s.orders ∧ (s.abortGoesTo c code i).caps = s.caps ∧
      (s.abortGoesTo c code i).counters = s.counters ∧ (s.abortGoesTo c code i).prioQueue = s.prioQueue ∧
      (s.abortGoesTo c code i).token = s.token ∧ (s.abortGoesTo c code i).window = s.window ∧
      (s.abortGoesTo c code i).threshold = s.threshold ∧ (s.abortGoesTo c code i).windowLen = s.windowLen ∧
      (s.abortGoesTo c code i).ports = s.ports ∧ (s.abortGoesTo c code i).tickSource = s.tickSource ∧
      (s.abortGoesTo c code i).divisor = s.divisor ∧ (s.abortGoesTo c code i).tickLevel = s.tickLevel ∧
      (s.abortGoesTo c code i).lifetimes = s.lifetimes ∧ (s.abortGoesTo c code i).regions = s.regions ∧
      (s.abortGoesTo c code i).bus = s.bus ∧ (s.abortGoesTo c code i).reqs = s.reqs ∧
      (s.abortGoesTo c code i).pointer = s.pointer ∧ (s.abortGoesTo c code i).cfgPort = s.cfgPort ∧
      (s.abortGoesTo c code i).joinA = s.joinA ∧ (s.abortGoesTo c code i).joinB = s.joinB ∧
      (s.abortGoesTo c code i).masks = s.masks ∧ (s.abortGoesTo c code i).bridge = s.bridge ∧
      (s.abortGoesTo c code i).qreq = s.qreq ∧ (s.abortGoesTo c code i).rst = s.rst ∧
      (s.abortGoesTo c code i).freeCount = s.freeCount ∧ (s.abortGoesTo c code i).pending = s.pending ∧
      (∀ j, (s.abortGoesTo c code i).port j = s.port j) ∧ (∀ j, (s.abortGoesTo c code i).reads j = s.reads j) ∧
      (∀ j, (s.abortGoesTo c code i).order j = s.order j) ∧
      (∀ j, (s.abortGoesTo c code i).serving j = s.serving j) ∧
      (∀ j, (s.abortGoesTo c code i).served j = s.served j) ∧
      (∀ j, (s.abortGoesTo c code i).kindOf j = s.kindOf j) ∧
      (s.abortGoesTo c code i).escalationOn = s.escalationOn ∧
      (s.abortGoesTo c code i).windowFromW = s.windowFromW := by
  unfold State.abortGoesTo
  simp only
  split
  · simp
  · split <;> simp

/-- What an abort leaves as it was (R91). -/
@[simp] theorem State.takeAbort_frame (s : State) (c : CtxId) (code : AbortCode) (a : Option Addr)
    (q : Option Party) :
    (s.takeAbort c code a q).inFlight = s.inFlight ∧ (s.takeAbort c code a q).caps = s.caps ∧
      (s.takeAbort c code a q).threshold = s.threshold ∧ (s.takeAbort c code a q).windowLen = s.windowLen ∧
      (s.takeAbort c code a q).tickSource = s.tickSource ∧ (s.takeAbort c code a q).divisor = s.divisor ∧
      (s.takeAbort c code a q).tickLevel = s.tickLevel ∧ (s.takeAbort c code a q).lifetimes = s.lifetimes ∧
      (s.takeAbort c code a q).regions = s.regions ∧ (s.takeAbort c code a q).bus = s.bus ∧
      (s.takeAbort c code a q).reqs = s.reqs ∧ (s.takeAbort c code a q).pointer = s.pointer ∧
      (s.takeAbort c code a q).cfgPort = s.cfgPort ∧ (s.takeAbort c code a q).joinA = s.joinA ∧
      (s.takeAbort c code a q).joinB = s.joinB ∧ (s.takeAbort c code a q).masks = s.masks ∧
      (s.takeAbort c code a q).bridge = s.bridge ∧ (s.takeAbort c code a q).qreq = s.qreq ∧
      (s.takeAbort c code a q).rst = s.rst ∧ (s.takeAbort c code a q).freeCount = s.freeCount ∧
      (s.takeAbort c code a q).pending = s.pending ∧ (∀ i, (s.takeAbort c code a q).serving i = s.serving i) ∧
      (∀ i, (s.takeAbort c code a q).served i = s.served i) ∧
      (∀ i, (s.takeAbort c code a q).kindOf i = s.kindOf i) ∧
      (s.takeAbort c code a q).escalationOn = s.escalationOn ∧
      (s.takeAbort c code a q).windowFromW = s.windowFromW := by
  unfold State.takeAbort
  simp only
  split <;> simp

/-- What an abort request leaves as it was (R91). -/
@[simp] theorem State.abort_frame (s : State) (c : CtxId) (code : AbortCode) (a : Option Addr)
    (q : Option Party) :
    (s.abort c code a q).inFlight = s.inFlight ∧ (s.abort c code a q).caps = s.caps ∧
      (s.abort c code a q).threshold = s.threshold ∧ (s.abort c code a q).windowLen = s.windowLen ∧
      (s.abort c code a q).tickSource = s.tickSource ∧ (s.abort c code a q).divisor = s.divisor ∧
      (s.abort c code a q).tickLevel = s.tickLevel ∧ (s.abort c code a q).lifetimes = s.lifetimes ∧
      (s.abort c code a q).regions = s.regions ∧ (s.abort c code a q).bus = s.bus ∧
      (s.abort c code a q).reqs = s.reqs ∧ (s.abort c code a q).pointer = s.pointer ∧
      (s.abort c code a q).cfgPort = s.cfgPort ∧ (s.abort c code a q).joinA = s.joinA ∧
      (s.abort c code a q).joinB = s.joinB ∧ (s.abort c code a q).masks = s.masks ∧
      (s.abort c code a q).bridge = s.bridge ∧ (s.abort c code a q).qreq = s.qreq ∧
      (s.abort c code a q).rst = s.rst ∧ (s.abort c code a q).freeCount = s.freeCount ∧
      (s.abort c code a q).pending = s.pending ∧ (∀ i, (s.abort c code a q).serving i = s.serving i) ∧
      (∀ i, (s.abort c code a q).served i = s.served i) ∧ (∀ i, (s.abort c code a q).kindOf i = s.kindOf i) ∧
      (s.abort c code a q).escalationOn = s.escalationOn ∧ (s.abort c code a q).windowFromW = s.windowFromW := by
  unfold State.abort
  split <;> simp

/-- An abort adds jobs at the tail only (R99). -/
theorem State.abort_jobs (s : State) (c : CtxId) (code : AbortCode) (cause : Option Addr) (party : Option Party) :
    ∃ l, (s.abort c code cause party).jobs = s.jobs ++ l := by
  have h : ∀ (t : State) (i : Image), ∃ l, (t.abortGoesTo c code i).jobs = t.jobs ++ l := by
    intro t i
    unfold State.abortGoesTo
    simp only
    split
    · exact ⟨_, by simp; rfl⟩
    · exact ⟨[], by split <;> simp⟩
  unfold State.abort
  split
  · unfold State.takeAbort
    simp only
    obtain ⟨l, hl⟩ := h _ _
    exact ⟨l, by rw [hl]; split <;> simp⟩
  · exact ⟨[], by simp⟩

/-- An abort leaves every port's cycle, pair, pending record address, pin and answers. -/
theorem State.port_abort (s : State) (c : CtxId) (code : AbortCode) (cause : Option Addr) (party : Option Party)
    (p : PortId) : (s.abort c code cause party).port p =
      { s.port p with flags := ((s.abort c code cause party).port p).flags } := by
  unfold State.abort
  split
  · unfold State.takeAbort
    simp only [State.abortGoesTo_frame]
    split
    · conv_lhs => rw [State.port_setFlags]
      simp
    · simp
  · rfl

/-! ### Several aborts of one claim -/

/-- Several abort requests of one claim leave what each leaves, and advance the free value's argument. -/
theorem State.abortAll_keeps {γ : Type} (f : State → γ) (cs : List CtxId) (code : AbortCode) (cause : Option Addr)
    (party : Option Party) (h : ∀ t c, f (State.abort t c code cause party) = f t)
    (hf : ∀ (t : State) (n : Nat), f (t.setFreeCount n) = f t) (s : State) :
    f (s.abortAll cs code cause party) = f s := by
  unfold State.abortAll
  simp only [State.inFreeOrder]
  rw [foldl_keeps f _ (fun t c => h t c), hf]

/-- Several abort requests keep whatever each of them keeps, as long as it does not speak of the free value. -/
theorem State.abortAll_invariant (P : State → Prop) (cs : List CtxId) (code : AbortCode) (cause : Option Addr)
    (party : Option Party) (h : ∀ t, ∀ c ∈ cs, P t → P (t.abort c code cause party))
    (hf : ∀ (t : State) (n : Nat), P t → P (t.setFreeCount n)) (s : State) (hs : P s) :
    P (s.abortAll cs code cause party) := by
  unfold State.abortAll
  simp only [State.inFreeOrder]
  exact foldl_invariant P _ _ (fun t c hc => h t c (mem_freeOrder.mp hc)) _ (hf _ _ hs)

/-- With at most one context to abort, the free value is not consulted. -/
theorem State.abortAll_one (s : State) (c : CtxId) (code : AbortCode) (cause : Option Addr) (party : Option Party) :
    s.abortAll [c] code cause party = s.abort c code cause party := by
  simp only [State.abortAll, State.inFreeOrder, freeOrder, List.foldl_cons, List.foldl_nil]
  rfl

/-- With no context to abort, nothing happens. -/
theorem State.abortAll_none (s : State) (code : AbortCode) (cause : Option Addr) (party : Option Party) :
    s.abortAll [] code cause party = s := rfl

/-- What several abort requests of one claim leave as it was. -/
@[simp] theorem State.abortAll_frame (s : State) (cs : List CtxId) (code : AbortCode) (a : Option Addr)
    (q : Option Party) :
    (s.abortAll cs code a q).inFlight = s.inFlight ∧ (s.abortAll cs code a q).caps = s.caps ∧
      (s.abortAll cs code a q).threshold = s.threshold ∧ (s.abortAll cs code a q).windowLen = s.windowLen ∧
      (s.abortAll cs code a q).tickSource = s.tickSource ∧ (s.abortAll cs code a q).divisor = s.divisor ∧
      (s.abortAll cs code a q).tickLevel = s.tickLevel ∧ (s.abortAll cs code a q).lifetimes = s.lifetimes ∧
      (s.abortAll cs code a q).regions = s.regions ∧ (s.abortAll cs code a q).bus = s.bus ∧
      (s.abortAll cs code a q).reqs = s.reqs ∧ (s.abortAll cs code a q).pointer = s.pointer ∧
      (s.abortAll cs code a q).cfgPort = s.cfgPort ∧ (s.abortAll cs code a q).joinA = s.joinA ∧
      (s.abortAll cs code a q).joinB = s.joinB ∧ (s.abortAll cs code a q).masks = s.masks ∧
      (s.abortAll cs code a q).bridge = s.bridge ∧ (s.abortAll cs code a q).qreq = s.qreq ∧
      (s.abortAll cs code a q).rst = s.rst ∧ (s.abortAll cs code a q).pending = s.pending ∧
      (∀ i, (s.abortAll cs code a q).serving i = s.serving i) ∧
      (∀ i, (s.abortAll cs code a q).served i = s.served i) ∧
      (∀ i, (s.abortAll cs code a q).kindOf i = s.kindOf i) ∧
      (s.abortAll cs code a q).escalationOn = s.escalationOn ∧
      (s.abortAll cs code a q).windowFromW = s.windowFromW := by
  refine State.abortAll_invariant (fun t =>
    t.inFlight = s.inFlight ∧ t.caps = s.caps ∧ t.threshold = s.threshold ∧ t.windowLen = s.windowLen ∧
      t.tickSource = s.tickSource ∧ t.divisor = s.divisor ∧ t.tickLevel = s.tickLevel ∧
      t.lifetimes = s.lifetimes ∧ t.regions = s.regions ∧ t.bus = s.bus ∧ t.reqs = s.reqs ∧
      t.pointer = s.pointer ∧ t.cfgPort = s.cfgPort ∧ t.joinA = s.joinA ∧ t.joinB = s.joinB ∧
      t.masks = s.masks ∧ t.bridge = s.bridge ∧ t.qreq = s.qreq ∧ t.rst = s.rst ∧ t.pending = s.pending ∧
      (∀ i, t.serving i = s.serving i) ∧ (∀ i, t.served i = s.served i) ∧ (∀ i, t.kindOf i = s.kindOf i) ∧
      t.escalationOn = s.escalationOn ∧ t.windowFromW = s.windowFromW)
    cs code a q ?_ ?_ s ?_
  · intro t c _ h
    simpa only [State.abort_frame] using h
  · intro t n h
    simpa only [State.setFreeCount_frame, State.setFreeCount_views] using h
  · simp

/-- What an invasion leaves as it was (R46). -/
@[simp] theorem State.invade_frame (s : State) (l : Line) (a : Addr) (q : Party) :
    (s.invade l a q).inFlight = s.inFlight ∧ (s.invade l a q).caps = s.caps ∧
      (s.invade l a q).threshold = s.threshold ∧ (s.invade l a q).windowLen = s.windowLen ∧
      (s.invade l a q).tickSource = s.tickSource ∧ (s.invade l a q).divisor = s.divisor ∧
      (s.invade l a q).tickLevel = s.tickLevel ∧ (s.invade l a q).lifetimes = s.lifetimes ∧
      (s.invade l a q).regions = s.regions ∧ (s.invade l a q).bus = s.bus ∧ (s.invade l a q).reqs = s.reqs ∧
      (s.invade l a q).pointer = s.pointer ∧ (s.invade l a q).cfgPort = s.cfgPort ∧
      (s.invade l a q).joinA = s.joinA ∧ (s.invade l a q).joinB = s.joinB ∧ (s.invade l a q).masks = s.masks ∧
      (s.invade l a q).bridge = s.bridge ∧ (s.invade l a q).qreq = s.qreq ∧ (s.invade l a q).rst = s.rst ∧
      (s.invade l a q).pending = s.pending ∧ (∀ i, (s.invade l a q).serving i = s.serving i) ∧
      (∀ i, (s.invade l a q).served i = s.served i) ∧ (∀ i, (s.invade l a q).kindOf i = s.kindOf i) ∧
      (s.invade l a q).escalationOn = s.escalationOn ∧ (s.invade l a q).windowFromW = s.windowFromW := by
  simp [State.invade]

/-- Several aborts add jobs at the tail only (R99). -/
theorem State.abortAll_jobs (s : State) (cs : List CtxId) (code : AbortCode) (a : Option Addr) (q : Option Party) :
    ∃ m, (s.abortAll cs code a q).jobs = s.jobs ++ m := by
  refine State.abortAll_invariant (fun t => ∃ m, t.jobs = s.jobs ++ m) _ _ _ _ ?_ ?_ s ⟨[], by simp⟩
  · rintro t c - ⟨m, hm⟩
    obtain ⟨l', hl'⟩ := State.abort_jobs t c code a q
    exact ⟨m ++ l', by rw [hl', hm, List.append_assoc]⟩
  · rintro t n ⟨m, hm⟩
    exact ⟨m, by simpa using hm⟩

/-- An invasion adds jobs at the tail only (R99). -/
theorem State.invade_jobs (s : State) (l : Line) (a : Addr) (q : Party) :
    ∃ m, (s.invade l a q).jobs = s.jobs ++ m := State.abortAll_jobs ..

/-- Several aborts leave every port's cycle, pair, pending record address, pin and answers. -/
theorem State.port_abortAll (s : State) (cs : List CtxId) (code : AbortCode) (a : Option Addr) (q : Option Party)
    (p : PortId) : (s.abortAll cs code a q).port p =
      { s.port p with flags := ((s.abortAll cs code a q).port p).flags } := by
  refine State.abortAll_invariant (fun t => t.port p = { s.port p with flags := (t.port p).flags }) _ _ _ _ ?_ ?_ s
    rfl
  · intro t c _ h
    conv_lhs => rw [State.port_abort, h]
  · intro t n h
    simpa using h

end Sys2Proof.Machine
end

