-- ==== Sys2Proof/Laws/Settle.lean ====
section
/-! SUPPORT. What follows a claim in its own step: when the queue's head and the arbiter have nothing to do, and that
they have nothing left to do once they have acted. -/

namespace Sys2Proof.Machine

/-! ### What the arbiter reads -/

/-- The arbiter reads the standing requests, the pointer, the queue's head and the pairs, and nothing else. -/
theorem State.winner_congr {s t : State} (hr : t.reqs = s.reqs) (hp : t.pointer = s.pointer) (hj : t.jobs = s.jobs)
    (hq : ∀ q, (t.port q).pair = (s.port q).pair) : t.winner = s.winner := by
  have he : t.engineReq = s.engineReq := by simp only [State.engineReq, hj]
  have hres : t.reserved = s.reserved := by simp only [State.reserved, hq]
  have hst : ∀ r, t.stands r = s.stands r := by intro r; cases r <;> simp [State.stands, hr, he]
  have hc : t.standsClosing = s.standsClosing := by funext r; cases r <;> simp [State.standsClosing, hr]
  have hel : t.eligible = s.eligible := by funext r; cases r <;> simp [State.eligible, hst, hres, hq]
  simp only [State.winner, hp, hc, hel]

/-- Whether a state is settled depends on the bus and on what the arbiter reads. -/
theorem State.settled_congr {s t : State} (hb : t.bus = s.bus) (hr : t.reqs = s.reqs) (hp : t.pointer = s.pointer)
    (hj : t.jobs = s.jobs) (hq : ∀ q, (t.port q).pair = (s.port q).pair) : t.settled = s.settled := by
  simp only [State.settled, hb, hj, State.winner_congr hr hp hj hq]

/-! ### Nothing to do -/

/-- A head of the queue that has started is left as it stands. -/
theorem State.kick_of_started {s : State} (h : s.jobs.head?.all fun j => j.phase != .waiting) : s.kick = s := by
  unfold State.kick
  split
  · rfl
  · rename_i j rest hj
    simp [hj] at h
    simp [h]

/-- No grant is made while the bus is BUSY or nobody may be granted. -/
theorem State.arbitrate_of_closed {s : State} (h : s.bus.isSome || s.winner.isNone) : s.arbitrate = s := by
  unfold State.arbitrate State.grants
  split
  · rfl
  · rename_i hb
    simp only [hb, Bool.false_or, Option.isNone_iff_eq_none] at h
    simp [h]

/-- In a settled state nothing follows. -/
theorem State.settle_of_settled {s : State} (h : s.settled) : s.settle = s := by
  simp only [State.settled, Bool.and_eq_true] at h
  rw [State.settle, State.kick_of_started h.2, State.arbitrate_of_closed h.1]

/-- A claim that touches neither the bus nor what the arbiter reads is followed by nothing. -/
theorem State.settle_of_quiet {s t : State} (h : s.settled) (hb : t.bus = s.bus) (hr : t.reqs = s.reqs)
    (hp : t.pointer = s.pointer) (hj : t.jobs = s.jobs) (hq : ∀ q, (t.port q).pair = (s.port q).pair) :
    t.settle = t :=
  State.settle_of_settled (by rw [State.settled_congr hb hr hp hj hq]; exact h)

/-! ### Once it has acted -/

/-- The queue the Engine is left with has no waiting head, and is not longer than the one it was given. -/
theorem State.engineRun_started (l : List Job) (s : State) :
    ((s.engineRun l).jobs.head?.all fun j => j.phase != .waiting) ∧ (s.engineRun l).jobs.length ≤ l.length := by
  induction l generalizing s with
  | nil => simp [State.engineRun]
  | cons j rest ih =>
    unfold State.engineRun
    split
    · split
      · simp
      · exact ⟨(ih _).1, Nat.le_succ_of_le (ih _).2⟩
    · split
      · exact ⟨(ih _).1, Nat.le_succ_of_le (ih _).2⟩
      · simp

/-- After the Engine's turn no head of the queue waits. -/
theorem State.kick_started (s : State) : s.kick.jobs.head?.all fun j => j.phase != .waiting := by
  unfold State.kick
  split
  · rename_i h
    simp [h]
  · rename_i j rest h
    split
    · exact (State.engineRun_started _ _).1
    · simpa [h] using ‹¬ j.phase = .waiting›

/-- A grant made to a requester that has a request leaves the bus BUSY and the queue's head started; a grant given up
leaves a shorter queue, its head started (R165, R101). -/
theorem State.grantTo_result {s : State} {r : Requester} (hr : s.stands r)
    (hh : s.jobs.head?.all fun j => j.phase != .waiting) :
    match s.grantTo r with
    | .out t => t.bus.isSome ∧ (t.jobs.head?.all fun j => j.phase != .waiting)
    | .gaveUp t => t.jobs.length < s.jobs.length ∧ (t.jobs.head?.all fun j => j.phase != .waiting) := by
  cases r with
  | port p =>
    obtain ⟨q, hq⟩ := Option.isSome_iff_exists.mp (show (s.reqs.get p).isSome = true from hr)
    simp [State.grantTo, hq]
    simpa using hh
  | engine =>
    have he : s.engineReq.isSome = true := hr
    unfold State.engineReq at he
    split at he
    · rename_i c work b rest hj
      simp only [State.grantTo, hj]
      cases work with
      | commit x y z => simp
      | record a i =>
        by_cases hl : s.commitLocked (lineOf a)
        · simp only [hl, if_true]
          exact ⟨Nat.lt_succ_of_le (State.engineRun_started _ _).2, (State.engineRun_started _ _).1⟩
        · obtain ⟨m, hm⟩ := State.invade_jobs
            (((s.setPointer .engine).setJobs (⟨c, .record a i, .writing⟩ :: rest)).setBus
              (some (busOf .engine b false))) (lineOf a) a (.ctx c)
          simp only [hl, Bool.false_eq_true, if_false]
          refine ⟨by simp, ?_⟩
          rw [hm]
          simp
    · simp at he

/-- The winner of a grant decision has a request standing (R165). -/
theorem State.winner_stands {s : State} {r : Requester} (h : s.winner = some r) : s.stands r := by
  unfold State.winner at h
  rcases hf : (searchOrder s.pointer).find? s.standsClosing with _ | q
  · rw [hf, Option.none_or] at h
    have := List.find?_some h
    cases r <;> simp_all [State.eligible]
  · rw [hf, Option.some_or] at h
    cases h
    have := List.find?_some hf
    cases r with
    | engine => simp [State.standsClosing] at this
    | port p =>
      simp only [State.standsClosing, Option.any_eq_true] at this
      obtain ⟨x, hx, -⟩ := this
      simp [State.stands, hx]

/-- Enough grant decisions leave none open. -/
theorem State.grants_settled (n : Nat) (s : State) (hn : s.jobs.length < n)
    (hh : s.jobs.head?.all fun j => j.phase != .waiting) : (s.grants n).settled := by
  induction n generalizing s with
  | zero => omega
  | succ n ih =>
    unfold State.grants
    split
    · rename_i hb
      simp [State.settled, hb]
      simpa using hh
    · split
      · rename_i hw
        simp [State.settled, hw]
        simpa using hh
      · rename_i r hw
        have hg := State.grantTo_result (State.winner_stands hw) hh
        split
        · rename_i t ht
          rw [ht] at hg
          simp only [State.settled, hg.1, Bool.true_or, Bool.true_and]
          exact hg.2
        · rename_i t ht
          rw [ht] at hg
          exact ih t (by omega) hg.2

/-- What follows a claim leaves nothing to follow (R73, R165). -/
theorem State.settle_settled (s : State) : s.settle.settled :=
  State.grants_settled _ _ (Nat.lt_succ_self _) (State.kick_started s)

/-- Settling twice is settling once. -/
theorem State.settle_settle (s : State) : s.settle.settle = s.settle :=
  State.settle_of_settled (State.settle_settled s)

end Sys2Proof.Machine
end

