-- ==== Sys2Proof/Laws/Keeps.lean ====
section
/-! SUPPORT. What follows every claim in its own step (`settle`) does no more than start jobs, finish jobs and grant
requests: a property that each of these keeps is kept by `settle`, and by a cycle of a port around its own part. -/

namespace Sys2Proof.Machine

/-! ### The ends of jobs -/

/-- Commit finish changes contexts, slots, lists, ports and the bridge state, and nothing else (R80, R81, R183). -/
@[simp] theorem State.commitFinish_frame (s : State) (c : CtxId) (n : Nat) :
    (s.commitFinish c n).ages = s.ages ∧ (s.commitFinish c n).readSets = s.readSets ∧
      (s.commitFinish c n).inFlight = s.inFlight ∧ (s.commitFinish c n).caps = s.caps ∧
      (s.commitFinish c n).jobs = s.jobs ∧ (s.commitFinish c n).counters = s.counters ∧
      (s.commitFinish c n).prioQueue = s.prioQueue ∧ (s.commitFinish c n).token = s.token ∧
      (s.commitFinish c n).window = s.window ∧ (s.commitFinish c n).threshold = s.threshold ∧
      (s.commitFinish c n).windowLen = s.windowLen ∧ (s.commitFinish c n).lifetimes = s.lifetimes ∧
      (s.commitFinish c n).regions = s.regions ∧ (s.commitFinish c n).bus = s.bus ∧
      (s.commitFinish c n).reqs = s.reqs ∧ (s.commitFinish c n).pointer = s.pointer ∧
      (s.commitFinish c n).joinA = s.joinA ∧ (s.commitFinish c n).joinB = s.joinB ∧
      (s.commitFinish c n).rst = s.rst ∧ (s.commitFinish c n).pending = s.pending := by
  unfold State.commitFinish State.drainTest
  simp only
  split <;> split <;> split <;> simp [State.idle, State.answerHeld, State.respond, State.setCycle]

/-- A record job's finish changes contexts, ports and the bridge state, and nothing else (R103, R183). -/
@[simp] theorem State.recordFinish_frame (s : State) (c : CtxId) (a b : Bool) :
    (s.recordFinish c a b).ages = s.ages ∧ (s.recordFinish c a b).readSets = s.readSets ∧
      (s.recordFinish c a b).inFlight = s.inFlight ∧ (s.recordFinish c a b).slots = s.slots ∧
      (s.recordFinish c a b).orders = s.orders ∧ (s.recordFinish c a b).caps = s.caps ∧
      (s.recordFinish c a b).jobs = s.jobs ∧ (s.recordFinish c a b).counters = s.counters ∧
      (s.recordFinish c a b).prioQueue = s.prioQueue ∧ (s.recordFinish c a b).token = s.token ∧
      (s.recordFinish c a b).window = s.window ∧ (s.recordFinish c a b).threshold = s.threshold ∧
      (s.recordFinish c a b).windowLen = s.windowLen ∧ (s.recordFinish c a b).lifetimes = s.lifetimes ∧
      (s.recordFinish c a b).regions = s.regions ∧ (s.recordFinish c a b).bus = s.bus ∧
      (s.recordFinish c a b).reqs = s.reqs ∧ (s.recordFinish c a b).pointer = s.pointer ∧
      (s.recordFinish c a b).joinA = s.joinA ∧ (s.recordFinish c a b).joinB = s.joinB ∧
      (s.recordFinish c a b).rst = s.rst ∧ (s.recordFinish c a b).pending = s.pending := by
  unfold State.recordFinish State.drainTest
  simp only
  split <;> split <;> split <;> split <;> (try split) <;>
    simp [State.idle, State.answerHeld, State.respond, State.setCycle]

/-! ### What settle does -/

/-- The property is kept by the start of the head job, by the two finishes of a head job that needs no burst, and by
the grants: all that `settle` does (R73, R79, R100, R101, R165). -/
structure State.SettleKeeps (P : State → Prop) : Prop where
  start : ∀ (s : State) (j k : Job) (rest : List Job) (b : Burst), P s → s.jobs = j :: rest → k.ctx = j.ctx →
    k.isCommit = j.isCommit → k.phase = .requesting b → P (s.setJobs (k :: rest))
  commitDone : ∀ (s : State) (j : Job) (rest : List Job) (n : Nat), P s → s.jobs = j :: rest → j.isCommit →
    P ((s.setJobs rest).commitFinish j.ctx n)
  recordDone : ∀ (s : State) (j : Job) (rest : List Job), P s → s.jobs = j :: rest → j.isCommit = false →
    P ((s.setJobs rest).recordFinish j.ctx true false)
  moved : ∀ s : State, P s → P (s.setPointer .engine)
  grantPort : ∀ (s : State) (p : PortId) (r : Request), P s → s.bus = none → s.reqs.get p = some r →
    P (((s.setReq p none).setPointer (.port p)).setBus (some (busOf (.port p) r.burst r.closing)))
  grantCommit : ∀ (s : State) (c : CtxId) (n f k : Nat) (b : Burst) (rest : List Job), P s → s.bus = none →
    s.jobs = ⟨c, .commit n f k, .requesting b⟩ :: rest →
    P ((s.setJobs (⟨c, .commit n f k, .writing⟩ :: rest)).setBus (some (busOf .engine b false)))
  grantRecord : ∀ (s : State) (c : CtxId) (a : Addr) (i : Image) (b : Burst) (rest : List Job), P s →
    s.bus = none → s.jobs = ⟨c, .record a i, .requesting b⟩ :: rest → s.commitLocked (lineOf a) = false →
    P (((s.setJobs (⟨c, .record a i, .writing⟩ :: rest)).setBus (some (busOf .engine b false))).invade (lineOf a) a
      (.ctx c))

/-- The Engine's run on the state's own queue keeps the property. -/
theorem State.engineRun_keeps {P : State → Prop} (h : State.SettleKeeps P) (l : List Job) (s : State) (hs : P s)
    (hj : s.jobs = l) : P (s.engineRun l) := by
  induction l generalizing s with
  | nil =>
    have : s.setJobs [] = s := by
      cases s
      simp_all [State.setJobs]
    simpa [State.engineRun, this] using hs
  | cons j rest ih =>
    unfold State.engineRun
    split
    · rename_i n f k hw
      have hc : j.isCommit = true := by simp [Job.isCommit, hw]
      split
      · exact h.start s j _ rest _ hs hj rfl (by simp [Job.isCommit, hw]) rfl
      · exact ih _ (h.commitDone s j rest _ hs hj hc) (by simp)
    · rename_i a i hw
      have hc : j.isCommit = false := by simp [Job.isCommit, hw]
      split
      · exact ih _ (h.recordDone s j rest hs hj hc) (by simp)
      · exact h.start s j _ rest _ hs hj rfl (by simp [Job.isCommit, hw]) rfl

/-- The start of a waiting head keeps the property. -/
theorem State.kick_keeps {P : State → Prop} (h : State.SettleKeeps P) {s : State} (hs : P s) : P s.kick := by
  unfold State.kick
  split
  · exact hs
  · rename_i j rest hj
    split
    · exact State.engineRun_keeps h _ s hs hj
    · exact hs

/-- One grant keeps the property, whether it goes out or is given up. -/
theorem State.grantTo_keeps {P : State → Prop} (h : State.SettleKeeps P) {s : State} (hs : P s) (hb : s.bus = none)
    (r : Requester) : match s.grantTo r with
    | .out t => P t
    | .gaveUp t => P t ∧ t.bus = none := by
  cases r with
  | port p =>
    rcases hr : s.reqs.get p with _ | r
    · simpa [State.grantTo, hr] using hs
    · simpa [State.grantTo, hr] using h.grantPort s p r hs hb hr
  | engine =>
    unfold State.grantTo
    rcases hj : s.jobs with _ | ⟨⟨c, w, ph⟩, rest⟩
    · simpa [hj] using hs
    · rcases ph with _ | b | _
      · simpa [hj] using hs
      · rcases w with ⟨n, f, k⟩ | ⟨a, i⟩
        · simpa [hj] using h.grantCommit _ c n f k b rest (h.moved s hs) (by simpa using hb) (by simpa using hj)
        · by_cases hl : s.commitLocked (lineOf a)
          · have hd := h.recordDone (s.setPointer .engine) ⟨c, .record a i, .requesting b⟩ rest (h.moved s hs)
              (by simpa using hj) rfl
            have hr := State.engineRun_keeps h rest _ hd (by simp)
            simp only [hl, if_true]
            refine ⟨hr, ?_⟩
            have : ∀ (l : List Job) (t : State), (t.engineRun l).bus = t.bus := by
              intro l
              induction l with
              | nil => intro t; simp [State.engineRun]
              | cons j rest ih =>
                intro t
                unfold State.engineRun
                split <;> split <;> simp [ih]
            rw [this]
            simpa using hb
          · have hl' : s.commitLocked (lineOf a) = false := by simpa using hl
            simpa [hl'] using h.grantRecord _ c a i b rest (h.moved s hs) (by simpa using hb) (by simpa using hj)
              (by simpa [State.commitLocked, State.writes, State.slotLine] using hl')
      · simpa [hj] using hs

/-- The grant decision keeps the property. -/
theorem State.grants_keeps {P : State → Prop} (h : State.SettleKeeps P) (n : Nat) {s : State} (hs : P s) :
    P (s.grants n) := by
  induction n generalizing s with
  | zero => exact hs
  | succ n ih =>
    unfold State.grants
    split
    · exact hs
    · rename_i hb
      have hb' : s.bus = none := by simpa using hb
      split
      · exact hs
      · rename_i r _
        have hg := State.grantTo_keeps h hs hb' r
        split
        · rename_i t ht
          rw [ht] at hg
          exact hg
        · rename_i t ht
          rw [ht] at hg
          exact ih hg.1

/-- What follows every claim in its own step keeps the property. -/
theorem State.settle_keeps {P : State → Prop} (h : State.SettleKeeps P) {s : State} (hs : P s) : P s.settle :=
  State.grants_keeps h _ (State.kick_keeps h hs)

/-- A cycle keeps the property when its own part does. -/
theorem State.cycle_keeps {P : State → Prop} (h : State.SettleKeeps P) {s : State} {p : PortId} {f : State → State}
    (hs : P s) (hf : s.takesCycle p → P (f (s.beginCycle p))) : P (s.cycle p f) := by
  unfold State.cycle
  split
  · exact State.settle_keeps h (hf ‹_›)
  · exact hs

/-- Arriving beats of a write keep the property when their storing does, and when the cycle they complete does. -/
theorem State.arrive_keeps {P : State → Prop} (h : State.SettleKeeps P) {s : State} {p : PortId} {r : RawCycle}
    {take : RawCycle → State → State} (hs : P s)
    (hr : ∀ (q : RawCycle) (t : State),
      (∃ y got, (s.port p).cycle = some y ∧ y.phase = .arriving got) ∧ t = s ∨ s.takesCycle p ∧ t = s.beginCycle p →
      P (t.setCycle p (some ⟨q.kind, q.addr, q.len, .arriving q.beats⟩)) ∧
      P (take { q with beats := q.beats.take (beatsOf q.len) } (t.setCycle p none))) : P (s.arrive p r take) := by
  have hd : ∀ (q : RawCycle) (t : State),
      (∃ y got, (s.port p).cycle = some y ∧ y.phase = .arriving got) ∧ t = s ∨ s.takesCycle p ∧ t = s.beginCycle p →
      P (t.received p q take) := by
    intro q t ht
    unfold State.received
    split
    · exact (hr q t ht).1
    · exact State.settle_keeps h (hr q t ht).2
  unfold State.arrive
  split
  · exact hs
  · rename_i hb
    split
    · rename_i hn
      refine hd _ _ (Or.inr ⟨?_, rfl⟩)
      simp only [Bool.or_eq_true, not_or, Bool.not_eq_true] at hb
      simp [State.takesCycle, hb, hn]
    · rename_i hy
      split
      · exact hd _ _ (Or.inl ⟨⟨_, _, hy, rfl⟩, rfl⟩)
      · exact hs
    · exact hs

/-- The break of a pair keeps the property when the end of the pair does. -/
theorem State.breakPair_keeps {P : State → Prop} (h : State.SettleKeeps P) {s : State} {p : PortId} (hs : P s)
    (hp : (s.port p).pair.isSome → P ((s.setPair p none).setFlag p .refused)) : P (s.breakPair p) := by
  unfold State.breakPair
  split
  · exact State.settle_keeps h (hp ‹_›)
  · exact hs

end Sys2Proof.Machine
end

