-- ==== Sys2Proof/Laws/Operations.lean ====
section
/-! SUPPORT. What the shared operations that the statements name come to, one lemma an operation: the Contention Unit's
notices, slots locked, requests sent, contests, several aborts of one claim, locks, footprints, regions, pairing. -/

namespace Sys2Proof.Machine

/-! ### The Contention Unit -/

/-- A grant of a FREE token: none with the queue empty, else RESERVED for its head (R135). -/
theorem State.grantToken_free {s : State} (h : s.token = .free) :
    (s.prioQueue = [] → s.grantToken = s) ∧
    (∀ c rest, s.prioQueue = c :: rest → s.escalationOn → s.grantToken =
      { s with prioQueue := rest, token := .reserved c, window := s.windowFromW }) := by
  refine ⟨fun hq => ?_, fun c rest hq ho => ?_⟩
  · simp [State.grantToken, h, hq]
  · simp [State.grantToken, h, hq, ho, State.setQueue, State.setToken]

/-- A commit notice: counter 0; a HELD token of the context is freed and granted onward; the queue keeps the context
(R134, R139). -/
theorem State.commitNotice_eq (s : State) (c : CtxId) :
    (s.token ≠ .held c → s.commitNotice c = { s with counters := s.counters.set c 0 }) ∧
    (s.token = .held c → s.prioQueue = [] → s.commitNotice c =
      { s with counters := s.counters.set c 0, token := .free, window := none }) ∧
    (∀ h rest, s.token = .held c → s.prioQueue = h :: rest → s.escalationOn → s.commitNotice c =
      { s with
        counters := s.counters.set c 0, token := .reserved h, prioQueue := rest, window := s.windowFromW }) := by
  have hn : s.token = .held c → s.commitNotice c = ((s.setCounter c 0).freeToken).grantToken := fun ht => if_pos ht
  refine ⟨fun ht => if_neg ht, fun ht hq => ?_, fun h rest ht hq ho => ?_⟩
  · exact (hn ht).trans ((State.grantToken_free (s := (s.setCounter c 0).freeToken) rfl).1 hq)
  · exact (hn ht).trans ((State.grantToken_free (s := (s.setCounter c 0).freeToken) rfl).2 h rest hq ho)

/-- The context leaves escalation: counter 0, out of the queue, and a token it owns freed and granted onward (R132,
R140). -/
theorem State.leaveEscalation_eq {s t : State} {c : CtxId}
    (h : t = { s with counters := s.counters.set c 0, prioQueue := s.prioQueue.filter (· ≠ c) }) :
    (s.token ≠ .held c → s.token ≠ .reserved c → s.leaveEscalation c = t) ∧
    (s.token = .held c ∨ s.token = .reserved c →
      (t.prioQueue = [] → s.leaveEscalation c = { t with token := .free, window := none }) ∧
      (∀ d rest, t.prioQueue = d :: rest → s.escalationOn → s.leaveEscalation c =
        { t with token := .reserved d, prioQueue := rest, window := s.windowFromW })) := by
  have hu : s.leaveEscalation c = if t.ownsToken c then t.freeToken.grantToken else t := by
    subst h
    rfl
  have ht : t.token = s.token := by rw [h]
  rw [hu]
  refine ⟨fun h1 h2 => ?_, fun h1 => ?_⟩
  · rw [if_neg]
    simp [State.ownsToken, ht, h1, h2]
  · rw [if_pos (by simp [State.ownsToken, ht, h1])]
    refine ⟨(State.grantToken_free (s := t.freeToken) rfl).1, fun d rest hq ho => ?_⟩
    have ho' : t.freeToken.escalationOn := by subst h; exact ho
    refine ((State.grantToken_free (s := t.freeToken) rfl).2 d rest hq ho').trans ?_
    subst h
    rfl

/-! ### Slots and requests -/

/-- Slots of the context's list become LOCKED, every other slot and all else stands (R66). -/
theorem State.lockSlots_eq (s : State) (c : CtxId) : s.lockSlots c = { s with slots := (s.lockSlots c).slots } ∧
    ∀ k : SlotId, (s.lockSlots c).slots[k] =
      if k ∈ s.order c then (s.slots[k]).map fun b => { b with locked := true } else s.slots[k] := by
  refine ⟨rfl, fun k => ?_⟩
  simp [State.lockSlots, State.setSlots]

/-- A write sent to memory: cycle, request and the write in flight (R34, R162, R164). -/
theorem State.sendWrite_eq (s : State) (p : PortId) (k : BitVec 3) (a : Addr) (bs : List WriteBeat) :
    s.sendWrite p k a bs =
      { s with
        ports := s.ports.set p { s.port p with cycle := some ⟨k, a, lenCode bs.length, .writing bs⟩ }
        reqs := s.reqs.set p (some ⟨⟨true, a, bs.map fun b =>
          ⟨b.en, laneWord fun n => if b.en.getLsbD n then laneByte b.data n else 0⟩⟩, false⟩)
        inFlight := s.inFlight ++ [(p, lineOf a)] } := rfl

/-- A read sent to memory: cycle, with the group's number, and request (R162, R164, R169). -/
theorem State.sendRead_eq (s : State) (p : PortId) (k : BitVec 3) (a : Addr) (rs : List ReadBeat)
    (g : Option CtxId) : s.sendRead p k a rs g =
      { s with
        ports := s.ports.set p
          { s.port p with
            cycle := some ⟨k, a, lenCode rs.length, .reading rs (g.map fun c => ⟨c, (s.ctx c).number⟩)⟩ }
        reqs := s.reqs.set p (some ⟨⟨false, a, rs.map fun r => ⟨r.en, 0⟩⟩, false⟩) } := rfl

/-! ### Contests and aborts -/

/-- The winner named to a loser: the holder that owns the HELD token, else the one nearest the head of the age list
(R38). -/
theorem State.contestWinner_eq (s : State) (hs : List CtxId) :
    (∀ h ∈ hs, s.token = .held h → s.contestWinner hs = some h) ∧
    ((∀ h ∈ hs, s.token ≠ .held h) → ∀ h l r, s.ages = l ++ h :: r → h ∈ hs → (∀ x ∈ l, x ∉ hs) →
      s.contestWinner hs = some h) := by
  refine ⟨fun h hm ht => ?_, fun hn h l r ha hm hl => ?_⟩
  · have : hs.find? (fun x => s.token = .held x) = some h := by
      have hi : (hs.find? fun x => s.token = .held x).isSome := List.find?_isSome.mpr ⟨h, hm, by simpa using ht⟩
      obtain ⟨x, hx⟩ := Option.isSome_iff_exists.mp hi
      have := List.find?_some hx
      simp only [ht, decide_eq_true_eq, Token.held.injEq] at this
      rw [this]
      exact hx
    simp [State.contestWinner, this]
  · have h1 : hs.find? (fun x => s.token = .held x) = none := by simpa [List.find?_eq_none] using hn
    have h2 : l.find? (fun x => hs.contains x) = none := by simpa [List.find?_eq_none] using hl
    have h3 : (s.ages.find? fun x => hs.contains x) = some h := by
      rw [ha, List.find?_append, h2]
      simp [hm]
    simp only [State.contestWinner, h1, h3, Option.none_or]

/-- Several abort requests of one claim: one for each listed context, in some order (R98; log entry 8). -/
theorem State.abortAll_order (s : State) (cs : List CtxId) (code : AbortCode) (cause : Option Addr)
    (party : Option Party) : ∃ (order : List CtxId) (n : Nat), order.Perm cs ∧ s.abortAll cs code cause party =
      order.foldl (fun u c => u.abort c code cause party) { s with freeCount := n } :=
  ⟨freeOrder cs.length s.freeCount cs, s.freeCount + (cs.length - 1), freeOrder_perm _ _ _, rfl⟩

/-! ### Locks, footprints, regions, pairing -/

/-- A line is locked for a port: by a COMMITTING context, by another port's pair, or by another port's write in flight
(R32, R33, R34, R36). -/
theorem State.lockedFor_iff (s : State) (p : PortId) (l : Line) : s.lockedFor p l = true ↔
    s.commitLocked l = true ∨ (∃ q, q ≠ p ∧ (s.port q).pair = some l) ∨ ∃ q, q ≠ p ∧ (q, l) ∈ s.inFlight := by
  have h1 : s.pairLocked p l = true ↔ ∃ q, q ≠ p ∧ (s.port q).pair = some l := by
    have : ∀ q : PortId, q ∈ four := by decide
    simp [State.pairLocked, this]
  have h2 : s.writeInFlight p l = true ↔ ∃ q, q ≠ p ∧ (q, l) ∈ s.inFlight := by
    simp only [State.writeInFlight, List.any_eq_true, Bool.and_eq_true, decide_eq_true_eq, Prod.exists]
    exact ⟨fun ⟨q, m, hm, hq, hl⟩ => ⟨q, hq, hl ▸ hm⟩, fun ⟨q, hq, hm⟩ => ⟨q, l, hm, hq, rfl⟩⟩
  simp only [State.lockedFor, Bool.or_eq_true, h1, h2, or_assoc]

/-- A line is commit-locked: a COMMITTING context has it in its write set (R32). -/
theorem State.commitLocked_iff (s : State) (l : Line) : s.commitLocked l = true ↔
    ∃ c, (s.ctx c).state = .committing ∧ l ∈ s.writes c := by
  have : ∀ c : CtxId, c ∈ four := by decide
  simp [State.commitLocked, this]

/-- A line is in a context's write set when a slot on its list holds it (R55). -/
theorem State.mem_writes (s : State) (c : CtxId) (l : Line) : l ∈ s.writes c ↔
    ∃ (i : SlotId) (b : SlotBody), i ∈ s.order c ∧ s.slots[i] = some b ∧ b.line = l := by
  simp [State.writes, State.slotLine]

/-- The OPEN contexts whose footprint holds a line (R31). -/
theorem State.mem_holders (s : State) (c : CtxId) (l : Line) : c ∈ s.holders l ↔
    (s.ctx c).state = .opened ∧ (l ∈ s.reads c ∨ l ∈ s.writes c) := by
  have : ∀ c : CtxId, c ∈ four := by decide
  simp [State.holders, State.inFootprint, this]

/-- The footprint counts a line of both sets once (R31). -/
theorem State.footprintSize_eq (s : State) (c : CtxId) (hr : (s.reads c).Nodup) (hw : (s.writes c).Nodup) :
    s.footprintSize c = ((s.reads c).toFinset ∪ (s.writes c).toFinset).card := by
  have h := Finset.card_sdiff_add_card (s.writes c).toFinset (s.reads c).toFinset
  have h1 : (s.reads c).toFinset.card = (s.reads c).length := List.toFinset_card_of_nodup hr
  have h2 : ((s.writes c).toFinset \ (s.reads c).toFinset).card =
      ((s.writes c).filter fun l => !(s.reads c).contains l).length := by
    rw [← List.toFinset_card_of_nodup (hw.filter _)]
    congr 1
    ext l
    simp
  rw [Finset.union_comm, ← h, h1, h2, State.footprintSize, Nat.add_comm]

/-- The kind of a line: that of the one entry that holds it, PASS where none does (R108). -/
theorem State.kindOf_eq (s : State) (l : Line) :
    ((∀ (k : Fin 8) (r : Region), s.regions[k] = some r → r.holds l = false) → s.kindOf l = .pass) ∧
    (∀ (k : Fin 8) (r : Region), s.regions[k] = some r → r.holds l →
      (∀ (j : Fin 8) (o : Region), j ≠ k → s.regions[j] = some o → o.holds l = false) → s.kindOf l = r.kind) := by
  have hm : ∀ e ∈ s.regions.toList, ∃ k : Fin 8, s.regions[k] = e := by
    intro e he
    obtain ⟨i, hi, h⟩ := List.getElem_of_mem he
    have hi' : i < 8 := by simpa using hi
    exact ⟨⟨i, hi'⟩, by simpa using h⟩
  have hi : ∀ k : Fin 8, s.regions[k] ∈ s.regions.toList := fun k => by simp
  refine ⟨fun h => ?_, fun k r hk hl hu => ?_⟩
  · have : s.regions.toList.find? (fun e => e.any fun r => r.holds l) = none := by
      rw [List.find?_eq_none]
      intro e he
      obtain ⟨k, hk⟩ := hm e he
      cases e with
      | none => simp
      | some r => simp [h k r hk]
    simp only [State.kindOf, this]
  · have hs : (s.regions.toList.find? fun e => e.any fun r => r.holds l).isSome :=
      List.find?_isSome.mpr ⟨_, hk ▸ hi k, by simpa using hl⟩
    obtain ⟨e, he⟩ := Option.isSome_iff_exists.mp hs
    obtain ⟨j, hj⟩ := hm e (List.mem_of_find?_eq_some he)
    have ha := List.find?_some he
    cases e with
    | none => simp at ha
    | some o =>
      have : j = k := by
        by_contra hn
        simp [hu j o hn hj] at ha
      subst this
      rw [hk] at hj
      simp only [State.kindOf, he, ← Option.some.inj hj]

/-- The pairing in force: a JOINED pair is served by its lower context, a SEPARATE port by its own (R2). -/
theorem State.serving_eq (s : State) : s.joined 0 = s.joinA ∧ s.joined 1 = s.joinA ∧ s.joined 2 = s.joinB ∧
    s.joined 3 = s.joinB ∧ (∀ p, s.joined p = false → s.serving p = p) ∧
    (s.joinA = true → s.serving 0 = 0 ∧ s.serving 1 = 0) ∧ (s.joinB = true → s.serving 2 = 2 ∧ s.serving 3 = 2) := by
  refine ⟨rfl, rfl, rfl, rfl, fun p => ?_, fun h => ⟨rfl, ?_⟩, fun h => ⟨rfl, ?_⟩⟩
  · fin_cases p <;> simp [State.joined, State.serving]
  · simp [State.serving, h]
  · simp [State.serving, h]

/-- How a context stands to the token and the queue (R130). -/
theorem State.relation_eq (s : State) (c : CtxId) :
    (s.token = .held c → s.relation c = .held) ∧ (s.token = .reserved c → s.relation c = .reserved) ∧
    (s.token ≠ .held c → s.token ≠ .reserved c →
      s.relation c = if c ∈ s.prioQueue then .queued else .none) := by
  refine ⟨fun h => by simp [State.relation, h], fun h => by simp [State.relation, h], fun h1 h2 => ?_⟩
  simp [State.relation, h1, h2]

/-! ### Form of cycles -/

/-- A write is good when every enabled byte of every beat agrees with its parity bit (R149). -/
theorem writeGood_iff (bs : List WriteBeat) : writeGood bs = true ↔
    ∀ b ∈ bs, ∀ n < 4, b.en.getLsbD n = true → byteParity (laneByte b.data n) = b.par.getLsbD n := by
  have h : ∀ b : WriteBeat, beatGood b.en b.data b.par = true ↔
      ∀ n < 4, b.en.getLsbD n = true → byteParity (laneByte b.data n) = b.par.getLsbD n := by
    intro b
    have h4 : ∀ n, n < 4 ↔ n ∈ [0, 1, 2, 3] := by
      intro n
      simp only [List.mem_cons, List.not_mem_nil, or_false]
      omega
    simp only [beatGood, List.all_eq_true, Bool.or_eq_true, Bool.not_eq_true', beq_iff_eq, h4]
    refine forall₂_congr fun n _ => ?_
    cases b.en.getLsbD n <;> simp
  simp [writeGood, h]

/-- A burst is legal when it has 1, 2, 4 or 8 beats and is aligned to its own size (R145, R147). -/
theorem legalBurst_iff (a : Addr) (n : Nat) :
    legalBurst a n = true ↔ n ∈ [1, 2, 4, 8] ∧ a.toNat % (4 * n) = 0 := by
  simp [legalBurst, or_assoc]

end Sys2Proof.Machine
end

