-- ==== Sys2Proof/Laws/PerInstr.lean ====
section
/-! SUPPORT. One statement for every command: a well-formed memory cycle moves bytes of one line only. -/

namespace Sys2Proof.Laws
open Sys2Proof Sys2Proof.Machine

/-- Address and number of beats of a command that is a memory cycle of legal form; none for every other command. -/
def OneLine.burst : Instr → Option (Addr × Nat)
  | .memRead _ addr ens => some (addr, ens.length)
  | .memWrite _ addr data => some (addr, beatsOf data.len)
  | .lockRead _ addr _ => some (addr, 1)
  | .lockWrite _ addr _ => some (addr, 1)
  | _ => none

/-- When the command is a well-formed memory cycle, all its bytes lie in the line of its address (R35, R145). -/
def OneLine.Statement (i : Instr) : Prop :=
  i.wellFormed = true → ∀ a n, OneLine.burst i = some (a, n) →
    1 ≤ n ∧ (a.toNat + 4 * n - 1) / 32 = a.toNat / 32

/-- A legal burst lies in one line. -/
theorem OneLine.of_legalBurst {a : Addr} {n : Nat} (h : legalBurst a n = true) :
    1 ≤ n ∧ (a.toNat + 4 * n - 1) / 32 = a.toNat / 32 := by
  simp only [legalBurst, Bool.and_eq_true, Bool.or_eq_true, beq_iff_eq] at h
  obtain ⟨hn, ha⟩ := h
  rcases hn with ((hn | hn) | hn) | hn <;> subst hn <;> omega

theorem OneLine.markOpen (p : PortId) (arg : Arg) : OneLine.Statement (.markOpen p arg) := by
  intro _ a n hb
  cases hb

theorem OneLine.markClose (p : PortId) (arg : Arg) : OneLine.Statement (.markClose p arg) := by
  intro _ a n hb
  cases hb

theorem OneLine.markDrop (p : PortId) (arg : Arg) (data : Word) (par : Lanes) :
    OneLine.Statement (.markDrop p arg data par) := by
  intro _ a n hb
  cases hb

theorem OneLine.markRecAddr (p : PortId) (arg : Arg) (data : Word) (par : Lanes) :
    OneLine.Statement (.markRecAddr p arg data par) := by
  intro _ a n hb
  cases hb

theorem OneLine.markStatus (p : PortId) (arg : Arg) : OneLine.Statement (.markStatus p arg) := by
  intro _ a n hb
  cases hb

theorem OneLine.markGetCfg (p : PortId) (item : Arg) : OneLine.Statement (.markGetCfg p item) := by
  intro _ a n hb
  cases hb

theorem OneLine.setCfgRegion (p : PortId) (k : Fin 8) (data : Word) (par : Lanes) :
    OneLine.Statement (.setCfgRegion p k data par) := by
  intro _ a n hb
  cases hb

theorem OneLine.setCfgPairing (p : PortId) (data : Word) (par : Lanes) :
    OneLine.Statement (.setCfgPairing p data par) := by
  intro _ a n hb
  cases hb

theorem OneLine.setCfgLifetime (p : PortId) (c : CtxId) (data : Word) (par : Lanes) :
    OneLine.Statement (.setCfgLifetime p c data par) := by
  intro _ a n hb
  cases hb

theorem OneLine.setCfgSlotCaps (p : PortId) (data : Word) (par : Lanes) :
    OneLine.Statement (.setCfgSlotCaps p data par) := by
  intro _ a n hb
  cases hb

theorem OneLine.setCfgEscalation (p : PortId) (data : Word) (par : Lanes) :
    OneLine.Statement (.setCfgEscalation p data par) := by
  intro _ a n hb
  cases hb

theorem OneLine.setCfgTickSource (p : PortId) (data : Word) (par : Lanes) :
    OneLine.Statement (.setCfgTickSource p data par) := by
  intro _ a n hb
  cases hb

theorem OneLine.setCfgFaultMasks (p : PortId) (data : Word) (par : Lanes) :
    OneLine.Statement (.setCfgFaultMasks p data par) := by
  intro _ a n hb
  cases hb

theorem OneLine.setCfgUndefinedItem (p : PortId) (item : Arg) (data : Word) (par : Lanes) :
    OneLine.Statement (.setCfgUndefinedItem p item data par) := by
  intro _ a n hb
  cases hb

theorem OneLine.memRead (p : PortId) (addr : Addr) (ens : List Lanes) :
    OneLine.Statement (.memRead p addr ens) := by
  intro h a n hb
  cases hb
  exact OneLine.of_legalBurst h

theorem OneLine.memWrite (p : PortId) (addr : Addr) (data : WriteData) :
    OneLine.Statement (.memWrite p addr data) := by
  intro h a n hb
  cases hb
  simp only [Instr.wellFormed, Bool.and_eq_true] at h
  exact OneLine.of_legalBurst h.1

theorem OneLine.lockRead (p : PortId) (addr : Addr) (en : Lanes) : OneLine.Statement (.lockRead p addr en) := by
  intro h a n hb
  cases hb
  exact OneLine.of_legalBurst h

theorem OneLine.lockWrite (p : PortId) (addr : Addr) (beat : WriteBeat) :
    OneLine.Statement (.lockWrite p addr beat) := by
  intro h a n hb
  cases hb
  exact OneLine.of_legalBurst h

theorem OneLine.malformedCycle (p : PortId) (raw : RawCycle) : OneLine.Statement (.malformedCycle p raw) := by
  intro _ a n hb
  cases hb

theorem OneLine.portReset (p : PortId) : OneLine.Statement (.portReset p) := by
  intro _ a n hb
  cases hb

theorem OneLine.partReset (straps : Straps) : OneLine.Statement (.partReset straps) := by
  intro _ a n hb
  cases hb

theorem OneLine.qreqAsserted : OneLine.Statement .qreqAsserted := by
  intro _ a n hb
  cases hb

theorem OneLine.qreqNegated : OneLine.Statement .qreqNegated := by
  intro _ a n hb
  cases hb

theorem OneLine.tick (cause : TickCause) : OneLine.Statement (.tick cause) := by
  intro _ a n hb
  cases hb

theorem OneLine.lifetimeExpiry (c : CtxId) : OneLine.Statement (.lifetimeExpiry c) := by
  intro _ a n hb
  cases hb

theorem OneLine.windowExpiry : OneLine.Statement .windowExpiry := by
  intro _ a n hb
  cases hb

theorem OneLine.storageFault (slot : SlotId) (offset : Fin 32) (flip : Byte) (flipPar : Bool) :
    OneLine.Statement (.storageFault slot offset flip flipPar) := by
  intro _ a n hb
  cases hb

theorem OneLine.grant : OneLine.Statement .grant := by
  intro _ a n hb
  cases hb

theorem OneLine.memoryBeatAnswer (xerr : Bool) (data : Word) (par : Lanes) :
    OneLine.Statement (.memoryBeatAnswer xerr data par) := by
  intro _ a n hb
  cases hb

theorem OneLine.jobStart : OneLine.Statement .jobStart := by
  intro _ a n hb
  cases hb

theorem OneLine.portResetRelease (p : PortId) : OneLine.Statement (.portResetRelease p) := by
  intro _ a n hb
  cases hb

theorem OneLine.partResetRelease : OneLine.Statement .partResetRelease := by
  intro _ a n hb
  cases hb

theorem OneLine.tickPinFall : OneLine.Statement .tickPinFall := by
  intro _ a n hb
  cases hb

end Sys2Proof.Laws
end

