-- ==== Sys2Proof/Laws/Ports.lean ====
section
/-! SUPPORT. What the operations on a port's cycle in progress do: responses given beat by beat, and the beats of a
write as they arrive. -/

namespace Sys2Proof.Machine

/-! ### Responses given beat by beat -/

/-- One response is given, and the others stay with the port's cycle; nothing else changes (R146). -/
theorem State.giveBeats_eq (s : State) (p : PortId) (kind : BitVec 3) (addr : Addr) (len : BitVec 2)
    (as : List Answer) : s.giveBeats p kind addr len as = s.setPort p
      { s.port p with
        cycle := if as.tail = [] then none else some ⟨kind, addr, len, .answering as.tail⟩
        answers := (s.port p).answers ++ as.take 1 } := by
  cases as with
  | nil => simp [State.giveBeats, State.setCycle]
  | cons a rest =>
    have h : ∀ x y : PortState, (s.setPort p x).setPort p y = s.setPort p y := by
      intro x y
      simp [State.setPort, Four.set_set]
    cases rest <;> simp [State.giveBeats, State.setCycle, State.respond, h]

/-- A port that is not answering a read gives nothing. -/
theorem State.answerNext_of_not {s : State} {p : PortId}
    (h : ∀ y, (s.port p).cycle = some y → ∀ left, y.phase ≠ .answering left) : s.answerNext p = s := by
  unfold State.answerNext
  split
  · rename_i hy
    exact absurd rfl (h _ hy _)
  · rfl

/-- The next response of one port changes no other port. -/
theorem State.port_answerNext_ne (s : State) {p q : PortId} (h : q ≠ p) : (s.answerNext p).port q = s.port q := by
  unfold State.answerNext
  split
  · simp [State.giveBeats_eq, h]
  · rfl

/-- The next response of a port depends on that port alone. -/
theorem State.port_answerNext_congr {s t : State} {p : PortId} (h : t.port p = s.port p) :
    (t.answerNext p).port p = (s.answerNext p).port p := by
  unfold State.answerNext
  rw [h]
  split
  · simp [State.giveBeats_eq, h]
  · exact h

/-- When every port gives its next response, each port is as if it had done so alone. -/
@[simp] theorem State.port_answerAll (s : State) (q : PortId) : s.answerAll.port q = (s.answerNext q).port q := by
  have h : ∀ {a b : PortId} (t : State), b ≠ a → (t.answerNext a).port b = t.port b :=
    fun t hab => t.port_answerNext_ne hab
  simp only [State.answerAll, four, List.foldl_cons, List.foldl_nil]
  match q with
  | 0 => rw [h _ (by decide), h _ (by decide), h _ (by decide)]
  | 1 =>
    rw [h _ (by decide), h _ (by decide)]
    exact State.port_answerNext_congr (h _ (by decide))
  | 2 =>
    rw [h _ (by decide)]
    exact State.port_answerNext_congr (by rw [h _ (by decide), h _ (by decide)])
  | 3 => exact State.port_answerNext_congr (by rw [h _ (by decide), h _ (by decide), h _ (by decide)])

/-- The next response of a port changes ports and nothing else. -/
theorem State.answerNext_frame (s : State) (p : PortId) : s.answerNext p = { s with ports := (s.answerNext p).ports } := by
  unfold State.answerNext
  split
  · simp [State.giveBeats_eq, State.setPort]
  · rfl

/-- The responses of a part clock change ports and nothing else. -/
theorem State.answerAll_frame (s : State) : s.answerAll = { s with ports := s.answerAll.ports } := by
  have h : ∀ (l : List PortId) (t : State), l.foldl State.answerNext t =
      { t with ports := (l.foldl State.answerNext t).ports } := by
    intro l
    induction l with
    | nil => intro t; rfl
    | cons p rest ih =>
      intro t
      rw [List.foldl_cons, ih (t.answerNext p), State.answerNext_frame t p]
  exact h four s

/-! ### Arriving beats -/

/-- A port in reset, or with a cycle in progress whose beats are not arriving, takes no beats (R144, R157, R159). -/
theorem State.arrive_of_busy {s : State} {p : PortId} {r : RawCycle} {take : RawCycle → State → State}
    (h : s.rst ∨ (s.port p).resetPin ∨
      ∃ y, (s.port p).cycle = some y ∧ (y.kind ≠ r.kind ∨ ∀ got, y.phase ≠ .arriving got)) :
    s.arrive p r take = s := by
  unfold State.arrive
  rcases h with h | h | ⟨y, hy, h⟩
  · simp [h]
  · simp [h]
  · split
    · rfl
    · obtain ⟨k, a, l, ph⟩ := y
      rw [hy]
      cases ph with
      | arriving got =>
        rcases h with h | h
        · simp at h
          simp [h]
        · exact absurd rfl (h got)
      | _ => rfl

/-- A write whose beats all come at once is taken as any other cycle. -/
theorem State.arrive_whole {s : State} {p : PortId} {r : RawCycle} {take : RawCycle → State → State}
    (hc : s.takesCycle p) (hr : r.beats.length = beatsOf r.len) :
    s.arrive p r take = s.cycle p fun t => take r (t.setCycle p none) := by
  have h := hc
  simp only [State.takesCycle, Bool.and_eq_true, Bool.not_eq_true', Option.isNone_iff_eq_none] at h
  have ht : r.beats.take (beatsOf r.len) = r.beats := List.take_of_length_le hr.le
  simp [State.arrive, State.cycle, State.received, hc, h, hr.not_lt, ht]

end Sys2Proof.Machine
end

