-- ==== Sys2Proof/Tests/Slice0.lean ====
section
/-! SUPPORT. The model's own tests: ill-formed commands, one step of every command on a small state, and for every
obligation with hypotheses concrete states and operands that meet them, clause by clause. -/

namespace Sys2Proof.Tests
open Sys2Proof Sys2Proof.Machine

/-! ### Small states -/

/-- After part reset with TRKALL high: all memory TRACKED, pairs SEPARATE. -/
def trk : State := .afterPartReset ⟨0, true, false, false⟩
/-- The same with both pairs JOINED. -/
def joint : State := .afterPartReset ⟨0, true, true, true⟩
/-- After part reset with every strap low: all memory PASS. -/
def bare : State := .reset

/-- The state after one command. -/
def after (i : Instr) (s : State) : State :=
  match exec i s with
  | .next t => t
  | _ => s

/-- A context with a group of one level. -/
def group (bounded escape : Bool) (notice : Nat) : Context :=
  { Context.reset with
    state := .opened, depth := 1, levels := [⟨bounded, escape, notice⟩], escape := escape, notice := notice
    bounded := bounded, lifetime := 1 }

/-- A group of context 0, OPEN. -/
def opened : State := (trk.setCtx 0 (group false false 0)).setAges [0]
/-- A bounded group of context 0, OPEN. -/
def openedB : State := (trk.setCtx 0 (group true false 0)).setAges [0]
/-- A group of context 1, OPEN. -/
def opened1 : State := (trk.setCtx 1 (group true false 0)).setAges [1]
/-- Groups of contexts 0 and 1, OPEN, 0 the older. -/
def opened2 : State := ((trk.setCtx 0 (group false false 0)).setCtx 1 (group true false 0)).setAges [0, 1]
/-- An aborted group of context 0 without a record. -/
def doomed : State := trk.setCtx 0 { group false false 0 with state := .doomed, lastCode := some .conflict }
/-- A context 0 that is ABORTING, its record burst out. -/
def aborting : State := after (.markDrop 0 0 0x10 (wordParity 0x10))
  (opened.setCtx 0 { group false false 0 with recAddr := some 0x100 })
/-- A good write beat of all four lanes. -/
def beat (w : Word) : WriteBeat := ⟨0xF, w, wordParity w⟩
/-- A write beat whose parity is bad. -/
def badBeat : WriteBeat := ⟨0xF, 0, 1⟩
/-- Context 0 with one staged line, line 2, in slot 0. -/
def staged : State := (opened.setSlot 0 (some ⟨false, 0, 2, mergeBytes 0x40 [beat 5] (Vector.replicate 32 none)⟩)).setOrder
  0 [0]
/-- Context 0 COMMITTING, its burst out. -/
def committing : State := after (.markClose 0 0) staged
/-- Port 1 holds a pair on line 2. -/
def paired : State := trk.setPair 1 (some 2)
/-- Context 0 holds the token, HELD, with line 2 read. -/
def heldTok : State := (openedB.setReads 0 [2]).setToken (.held 0) (some 5)
/-- The Region Table with entry 1 in force alone, of 32 bytes at line 2. -/
def region (k : Kind) (s : State) : State :=
  { s with regions := (Vector.replicate 8 none).set 1 (some ⟨2, 5, k⟩) }
/-- Port 1's ungrouped read of line 2 on the bus. -/
def reading : State := after (.memRead 1 0x40 [0xF]) trk
/-- Port 1's ungrouped write of line 2 on the bus. -/
def writing : State := after (.memWrite 1 0x40 ⟨0, [beat 5]⟩) trk
/-- Port 1 has brought the first of the two beats of a write of line 2. -/
def arriving : State := after (.memWrite 1 0x40 ⟨1, [beat 5]⟩) trk
/-- Context 0 reads both words of its staged line: two beats from the slot, the first given. -/
def answering : State := after (.memRead 0 0x40 [0xF, 0xF]) (staged.setSlot 0
  (some ⟨false, 0, 2, mergeBytes 0x40 [beat 5, beat 6] (Vector.replicate 32 none)⟩))
/-- The state after one part clock. -/
def clocked (s : State) : State :=
  match step s with
  | .next t => t
  | _ => s
/-- The image of an abort of context 0. -/
def image : Image := opened.image 0 .conflict none none 0

/-! ### Well-formedness refuses -/

theorem test_wf_memRead_three_beats : (Instr.memRead 0 0x40 [0xF, 0xF, 0xF]).wellFormed = false := by decide
theorem test_wf_memRead_off_its_alignment : (Instr.memRead 0 0x44 [0xF, 0xF]).wellFormed = false := by decide
theorem test_wf_memWrite_two_beats_for_one : (Instr.memWrite 0 0x40 ⟨0, [beat 0, beat 0]⟩).wellFormed = false := by decide
theorem test_wf_memWrite_off_its_alignment : (Instr.memWrite 0 0x44 ⟨1, [beat 0]⟩).wellFormed = false := by decide
theorem test_wf_lockRead_misaligned : (Instr.lockRead 0 0x41 0xF).wellFormed = false := by decide
theorem test_wf_lockWrite_misaligned : (Instr.lockWrite 0 0x42 (beat 0)).wellFormed = false := by decide
theorem test_wf_malformed_but_legal : (Instr.malformedCycle 0 ⟨1, 0x40, 0, [beat 0]⟩).wellFormed = false := by decide
theorem test_wf_undefined_item_0Fh : (Instr.setCfgUndefinedItem 0 0x0F 0 0).wellFormed = false := by decide
theorem test_wf_accepts : (Instr.memRead 0 0x40 [0xF, 0xF]).wellFormed ∧
    (Instr.setCfgUndefinedItem 0 0x11 0 0).wellFormed ∧ (Instr.malformedCycle 0 ⟨7, 0, 0, []⟩).wellFormed ∧
    (Instr.memWrite 0 0x40 ⟨1, [beat 0]⟩).wellFormed := by decide

/-! ### One step of every command -/

theorem test_markOpen : ((after (.markOpen 0 1) trk).ctx 0).bounded = true ∧
    ((after (.markOpen 0 1) trk).port 0).answers = [.word 0x11] := by decide
theorem test_markClose : ((after (.markClose 0 0) opened).ctx 0).state = .idle ∧
    ((after (.markClose 0 0) opened).port 0).answers = [.word 4] := by decide
theorem test_markClose_commits : (committing.ctx 0).state = .committing ∧ (committing.port 0).answers = [] ∧
    (committing.bus.map fun b => b.burst) = some ⟨true, 0x40, [⟨0xF, 5⟩]⟩ := by decide
theorem test_markDrop : (aborting.ctx 0).state = .aborting ∧ (aborting.ctx 0).lastCode = some (.user 0x10) ∧
    (aborting.port 0).answers = [.done] ∧ aborting.abt 0 = true := by decide
theorem test_markRecAddr : ((after (.markRecAddr 0 0 0x100 (wordParity 0x100)) trk).port 0).pendRec =
    some 0x100 := by decide
theorem test_markStatus : ((after (.markStatus 0 0) doomed).port 0).answers = [.word 0x01000014] := by decide
theorem test_markGetCfg : ((after (.markGetCfg 0 0) trk).port 0).answers = [.word 0x1E000000] := by decide
theorem test_setCfgRegion : (after (.setCfgRegion 0 3 0x32800002 (wordParity 0x32800002)) bare).regions[3] =
    some ⟨2, 5, .blocked⟩ := by decide
theorem test_setCfgPairing : (after (.setCfgPairing 0 2 (wordParity 2)) trk).serving 3 = 2 := by decide
theorem test_setCfgLifetime : (after (.setCfgLifetime 0 3 0x10005 (wordParity 0x10005)) trk).lifetimes.get 3 =
    ⟨5, .cycles⟩ := by decide
theorem test_setCfgSlotCaps : (after (.setCfgSlotCaps 0 0x30010203 (wordParity 0x30010203)) trk).caps =
    ⟨3, 2, 1, 48⟩ := by decide
theorem test_setCfgEscalation : (after (.setCfgEscalation 0 0x0702 (wordParity 0x0702)) trk).windowLen = 7 := by
  decide
theorem test_setCfgTickSource : (after (.setCfgTickSource 0 7 (wordParity 7)) { trk with divisor := 9 }).divisor =
    0 := by decide
theorem test_setCfgFaultMasks : (after (.setCfgFaultMasks 0 0xFF (wordParity 0xFF))
    (trk.setFlag 2 .torn)).flt = false ∧ (trk.setFlag 2 .torn).flt = true := by decide
theorem test_setCfgUndefinedItem : ((after (.setCfgUndefinedItem 0 0x11 0 (wordParity 0)) trk).port 0).flags =
    0x40 := by decide
theorem test_memRead : (reading.bus.map fun b => b.owner) = some (.port 1) := by decide
theorem test_memRead_forwarded : ((after (.memRead 0 0x40 [0xF]) staged).port 0).answers = [.word 5] ∧
    (after (.memRead 0 0x40 [0xF]) staged).reads 0 = [2] := by decide
theorem test_memWrite_stages : (after (.memWrite 0 0x40 ⟨0, [beat 5]⟩) opened).writes 0 = [2] := by decide
theorem test_memWrite_invades : ((after (.memWrite 2 0x40 ⟨0, [beat 5]⟩) staged).ctx 0).lastCode = some .invaded := by
  decide
theorem test_lockRead : ((after (.lockRead 1 0x44 0xF) trk).port 1).pair = some 2 := by decide
theorem test_lockWrite : (after (.lockWrite 1 0x44 (beat 5)) paired).bus.any (fun b => b.closing) = true := by decide
theorem test_malformedCycle : ((after (.malformedCycle 2 ⟨7, 0, 0, []⟩) trk).port 2).flags = 4 ∧
    ((clocked (after (.malformedCycle 2 ⟨1, 0x44, 1, []⟩) trk)).port 2).answers = [.readError, .readError] := by decide
theorem test_malformedCycle_that_is_an_open :
    after (.malformedCycle 0 ⟨5, 0x0040018, 0, [beat 0]⟩) trk = after (.markOpen 0 6) trk := by decide
theorem test_memWrite_arrives : (arriving.port 1).cycle = some ⟨2, 0x40, 1, .arriving [beat 5]⟩ ∧
    ((after (.memWrite 1 0 ⟨0, [beat 6]⟩) arriving).bus.map fun b => b.burst.beats) = some [⟨0xF, 5⟩, ⟨0xF, 6⟩] := by decide
theorem test_portReset_drops_arriving_beats : ((after (.portReset 1) arriving).port 1).cycle = none ∧
    (after (.portReset 1) arriving).bus = none := by decide
theorem test_memRead_from_the_slot_beat_by_beat : (answering.port 0).answers = [.word 5] ∧
    ((clocked answering).port 0).answers = [.word 5, .word 6] ∧ ((clocked answering).port 0).cycle = none := by decide
theorem test_portReset_cuts_a_read_from_the_slot :
    ((clocked (after (.portReset 0) answering)).port 0).answers = [] ∧
    ((after (.portReset 0) answering).port 0).cycle = none := by decide
theorem test_portReset : ((after (.portReset 0) staged).ctx 0).state = .idle ∧
    (after (.portReset 0) staged).slots[(0 : SlotId)] = none := by decide
theorem test_portReset_after_a_group_write :
    ((after (.memWrite 0 0x40 ⟨0, [beat 5]⟩) opened).port 0).answers = [.done] ∧
    ((after (.portReset 0) (after (.memWrite 0 0x40 ⟨0, [beat 5]⟩) opened)).port 0).answers = [] := by decide
theorem test_portResetRelease : ((after (.portResetRelease 0) (trk.setPort 0 (.reset true))).port 0).resetPin =
    false := by decide
theorem test_partReset : ((after (.partReset .low) staged).ctx 0).state = .idle ∧
    (after (.partReset .low) staged).kindOf 2 = .pass := by decide
theorem test_partResetRelease : (after .partResetRelease { trk with rst := true, qreq := true }).bridge =
    .quiesced := by decide
theorem test_qreqAsserted : ((after .qreqAsserted opened).ctx 0).state = .doomed ∧
    (after .qreqAsserted opened).qack = true := by decide
theorem test_qreqNegated : (after .qreqNegated { trk with bridge := .quiesced, qreq := true }).bridge =
    .running := by decide
theorem test_tick : ((after (.tick .divisor) opened).ctx 0).lifetime = 2 := by decide
theorem test_tick_pin : (after (.tick .pinHigh) { trk with tickSource := 7, tickLevel := false }).tickLevel =
    true := by decide
theorem test_tickPinFall : (after .tickPinFall trk).tickLevel = false := by decide
theorem test_lifetimeExpiry : ((after (.lifetimeExpiry 0) { opened with
    lifetimes := opened.lifetimes.set 0 ⟨1, .time⟩ }).ctx 0).lastCode = some .timeout := by decide
theorem test_windowExpiry : (after .windowExpiry (heldTok.setToken (.held 0) (some 0))).token = .free := by decide
theorem test_storageFault : (after (.storageFault 0 0 1 false) staged).readOut 0 = none ∧
    staged.readOut 0 = some ⟨true, 0x40, [⟨0xF, 5⟩]⟩ := by decide
theorem test_grant : (after .grant (trk.setReq 2 (some ⟨⟨false, 0x40, [⟨0xF, 0⟩]⟩, false⟩))).pointer =
    .port 2 := by decide
theorem test_memoryBeatAnswer : ((after (.memoryBeatAnswer false 7 (wordParity 7)) reading).port 1).answers =
    [.word 7] ∧ ((after (.memoryBeatAnswer false 7 0) reading).port 1).flags = 0x10 := by decide
/-- Port 0's read of context 0's group is out; its partner ends that group and starts the next. The bad beat leaves the
new group OPEN and sets MEMERR on port 0. -/
theorem test_memoryBeatAnswer_of_a_group_that_has_ended :
    let s := (joint.setCtx 0 { group false false 0 with number := 2 }).setAges [0]
    let t := after (.memoryBeatAnswer true 0 0) (after (.markOpen 1 0) (after (.markClose 1 0) (after (.memRead 0 0x40 [0xF]) s)))
    (t.ctx 0).state = .opened ∧ (t.ctx 0).number = 3 ∧ (t.port 0).flags = 0x10 ∧
      ((after (.memoryBeatAnswer true 0 0) (after (.memRead 0 0x40 [0xF]) s)).ctx 0).lastCode = some .memerr := by decide
theorem test_memoryBeatAnswer_commit : ((after (.memoryBeatAnswer true 0 0) committing).port 0).answers =
    [.word 0x00010005] ∧ ((after (.memoryBeatAnswer true 0 0) committing).port 0).flags = 0x30 := by decide
theorem test_jobStart : (after .jobStart (aborting.setJobs [⟨0, .record 0x100 image, .waiting⟩])).engineReq =
    some (recordBurst 0x100 image) := by decide
theorem test_step_idle : ∃ t, step trk = .next t ∧ t.divisor = 1 := ⟨trk.partClock, rfl, by decide⟩

/-! ### Mark addresses written out from section 12.3 -/

theorem test_decode_open_0006h : decodeCycle 1 ⟨5, 0x0040018, 0, [beat 0]⟩ = some (.markOpen 1 6) := by decide
theorem test_decode_close : decodeCycle 1 ⟨5, 0x0080000, 0, [beat 0]⟩ = some (.markClose 1 0) := by decide
theorem test_decode_status_FFh : decodeCycle 1 ⟨5, 0x00C03FC, 0, [beat 0]⟩ = some (.markStatus 1 0xFF) := by decide
theorem test_decode_getCfg : decodeCycle 1 ⟨5, 0x0100040, 0, [beat 0]⟩ = some (.markGetCfg 1 0x10) := by decide
theorem test_decode_drop : decodeCycle 1 ⟨6, 0x0240000, 0, [beat 16]⟩ = some (.markDrop 1 0 16 (wordParity 16)) := by
  decide
theorem test_decode_recAddr : decodeCycle 1 ⟨6, 0x0280000, 0, [beat 32]⟩ =
    some (.markRecAddr 1 0 32 (wordParity 32)) := by decide
theorem test_decode_setCfg_0Fh : decodeCycle 1 ⟨6, 0x02C003C, 0, [beat 7]⟩ =
    some (.setCfgTickSource 1 7 (wordParity 7)) := by decide
theorem test_decode_wrong_direction : decodeCycle 1 ⟨6, 0x0040018, 0, [beat 0]⟩ =
    some (.malformedCycle 1 ⟨6, 0x0040018, 0, [beat 0]⟩) := by decide

/-! ### Witnesses: states and operands that meet the hypotheses of the obligations, clause by clause -/

theorem witness_StepRunsTheFrontCommand : ({ trk with pending := [.grant] } : State).pending = .grant :: [] := by decide

theorem witness_EmptyQueueStepIsOneClock : trk.pending = [] ∧ trk.rst = false ∧ trk.tickSource ≠ 7 ∧
    1022 + 1 < 16 * 4 ^ trk.tickSource.toNat ∧ 16 * 4 ^ trk.tickSource.toNat ≤ 1023 + 1 ∧
    ({ trk with tickSource := 7 } : State).tickSource = 7 ∧ answering.pending = [] ∧
    (answering.port 0).cycle = some ⟨1, 0x40, 1, .answering [.word 6]⟩ := by decide

theorem witness_ResetReleases : trk.rst = false ∧ (trk.port 0).cycle = none ∧
    (let s : State := { trk with rst := true }
     s.rst = true ∧ s.settled ∧ s.qreq = false) ∧
    (let s : State := { trk with rst := true, qreq := true }
     s.settled ∧ s.qreq = true ∧ s.bridge = .running ∧ s.jobs = [] ∧ ∀ c, (s.ctx c).state = .idle) := by decide

theorem witness_PortResetClearsThePort : ((trk.setPort 0 (.reset true)).port 0).resetPin = true ∧
    (reading.port 1).resetPin = false ∧ reading.bus.any (fun b => b.owner = .port 1) ∧
    (after (.memWrite 0 0x40 ⟨0, [beat 5]⟩) reading).reqs.get 0 ≠ none := by decide

theorem witness_PortResetByContextState :
    (trk.port 0).resetPin = false ∧ trk.joined 0 = false ∧ (trk.ctx (trk.serving 0)).state = .idle ∧
    (opened.ctx (opened.serving 0)).state = .opened ∧ (committing.ctx 0).state = .committing ∧
    (aborting.ctx 0).state = .aborting ∧ (doomed.ctx 0).state = .doomed ∧
    joint.joined 1 = true ∧ joint.serving 1 = 0 ∧ (joint.ctx 0).state = .idle ∧
    (∀ x ∈ [CtxState.opened, .committing, .aborting, .doomed],
      ((joint.setCtx 0 { group false false 0 with state := x }).ctx 0).state = x ∧
      (joint.setCtx 0 { group false false 0 with state := x }).joined 1 = true) ∧
    trk.token = .free ∧
    (heldTok.escalationFormed ∧ heldTok.token = .held 0 ∧ heldTok.prioQueue = [] ∧
      (heldTok.setQueue [2]).escalationFormed) ∧
    (heldTok.setQueue [2]).prioQueue.filter (· ≠ 0) = [2] ∧
    (heldTok.setToken (.reserved 0) (some 5)).token = .reserved 0 := by decide

theorem witness_OpenStartsOrAbortsAGroup :
    (trk.free 0 ∧ trk.settled ∧ trk.serving 0 = 0 ∧ trk.bridge = .running ∧ (trk.ctx 0).state = .idle ∧
      (0x000B : Arg).extractLsb' 2 2 ≠ 3 ∧ (0x000B : Arg).extractLsb' 4 12 = 0) ∧
    (openedB.free 0 ∧ openedB.bridge = .running ∧ (openedB.ctx 0).state = .opened ∧
      (openedB.ctx 0).bounded = true) ∧
    (let s := opened.setCtx 0 { group false false 0 with depth := 6 }
     s.free 0 ∧ (s.ctx 0).bounded = false ∧ (s.ctx 0).depth = 6) := by decide

theorem witness_LevelsAreEnteredAndLeft :
    (opened.free 0 ∧ opened.settled ∧ opened.serving 0 = 0 ∧ opened.bridge = .running ∧
      (opened.ctx 0).state = .opened ∧ (opened.ctx 0).bounded = false ∧ (opened.ctx 0).depth ≠ 6 ∧
      (0x000B : Arg).extractLsb' 2 2 ≠ 3 ∧ (0x000B : Arg).extractLsb' 4 12 = 0 ∧
      (0x000C : Arg).extractLsb' 2 2 = 3 ∧ (0x0010 : Arg).extractLsb' 4 12 ≠ 0) ∧
    (let s := after (.markOpen 0 0) opened
     s.free 0 ∧ s.settled ∧ (s.ctx 0).state = .opened ∧ 1 < (s.ctx 0).depth ∧
       (s.ctx 0).levels = ⟨false, false, 0⟩ :: [⟨false, false, 0⟩]) := by decide

theorem witness_OpenAndCloseRefusals :
    (committing.free 1 ∧ trk.free 0 ∧ trk.settled ∧ (0x000C : Arg).extractLsb' 2 2 = 3) ∧
    (aborting.free 0 ∧ aborting.settled ∧ (aborting.ctx (aborting.serving 0)).state = .aborting) ∧
    (let s : State := { doomed with bridge := .draining }
     s.free 0 ∧ s.settled ∧ (s.ctx 0).state = .doomed ∧ s.bridge ≠ .running) ∧
    (doomed.free 0 ∧ doomed.settled ∧ (doomed.ctx 0).state = .doomed ∧ doomed.bridge = .running) ∧
    (let s := joint.setCtx 0 { group false false 0 with state := .aborting, held := some 1 }
     s.free 0 ∧ s.settled ∧ (s.ctx (s.serving 0)).held ≠ none) ∧ (1 : Arg) ≠ 0 := by decide

theorem witness_CloseWithNothingToCommit :
    (opened.free 0 ∧ opened.settled ∧ opened.serving 0 = 0 ∧ (opened.ctx 0).state = .opened ∧
      (opened.ctx 0).depth = 1 ∧ opened.order 0 = []) ∧
    (doomed.free 0 ∧ doomed.settled ∧ doomed.serving 0 = 0 ∧ (doomed.ctx 0).state = .doomed) ∧
    (aborting.free 0 ∧ aborting.settled ∧ aborting.serving 0 = 0 ∧ (aborting.ctx 0).state = .aborting ∧
      (aborting.ctx 0).held = none) ∧
    opened.token ≠ .held 0 ∧
    (heldTok.escalationFormed ∧ heldTok.token = .held 0 ∧ heldTok.prioQueue = [] ∧
      (heldTok.setQueue [2]).escalationFormed) := by decide

theorem witness_CloseStartsACommit : staged.free 0 ∧ staged.serving 0 = 0 ∧ (staged.ctx 0).state = .opened ∧
    (staged.ctx 0).depth = 1 ∧ staged.order 0 ≠ [] := by decide

theorem witness_DropByState : (aborting.free 0 ∧ aborting.settled ∧ aborting.serving 0 = 0 ∧
      (aborting.ctx 0).state = .aborting ∧ beatGood 0xF 0x10 (wordParity 0x10)) ∧
    (trk.free 0 ∧ trk.settled ∧ (trk.ctx 0).state = .idle) ∧ ((0x0F : Word).extractLsb' 0 8).toNat < 16 ∧
    (opened.free 0 ∧ (opened.ctx 0).state = .opened ∧ (0x10 : Word).extractLsb' 8 24 = 0 ∧
      16 ≤ ((0x10 : Word).extractLsb' 0 8).toNat) := by decide

theorem witness_RecAddrSetsThePendingAddress : beatGood 0xF 0x0FFFFFE0 (wordParity 0x0FFFFFE0) ∧
    (0x0FFFFFE0 : Word).extractLsb' 0 5 = 0 ∧ (0x0FFFFFE0 : Word).extractLsb' 28 4 = 0 ∧
    (0x10000000 : Word).extractLsb' 28 4 ≠ 0 ∧ (0x10 : Word).extractLsb' 0 5 ≠ 0 ∧ beatGood 0xF 0 (wordParity 0) ∧
    opened.free 0 ∧ opened.settled ∧ aborting.free 0 ∧ aborting.settled := by decide

theorem witness_WriteMarkOfBadParity : trk.free 0 ∧ trk.settled ∧ beatGood 0xF 0 1 = false ∧
    (trk.ctx (trk.serving 0)).state ≠ .opened ∧ opened.free 0 ∧ opened.serving 0 = 0 ∧ (opened.ctx 0).state = .opened ∧
    (0x07 : Arg).toNat = (7 : Fin 8).val ∧ (0x0C : Arg).toNat = 0x09 + (3 : CtxId).val := by decide

theorem witness_StatusAndGetCfgReadTheState : (trk.free 0 ∧ trk.settled ∧ trk.serving 0 = 0 ∧
    (0x0100 : Arg).extractLsb' 8 8 ≠ 0 ∧ (0x00FF : Arg).extractLsb' 8 8 = 0) ∧
    (trk.free 0 ∧ trk.settled ∧ (0 : PortId) = trk.cfgPort ∧
    (0x10 : Arg).toNat ≤ 0x10 ∧ 0x10 < (0x11 : Arg).toNat ∧ (1 : PortId) ≠ trk.cfgPort ∧ trk.free 1 ∧
    (0 : Arg).toNat = (0 : Fin 8).val ∧ trk.regions[(0 : Fin 8)] = some ⟨0, 28, .tracked⟩ ∧
    (7 : Arg).toNat = (7 : Fin 8).val ∧ trk.regions[(7 : Fin 8)] = none ∧
    (0x0C : Arg).toNat = 0x09 + (3 : CtxId).val) ∧
    heldTok.token = .held 0 ∧ (heldTok.setToken (.reserved 0) none).token = .reserved 0 ∧ trk.token ≠ .held 0 ∧
    0 ∈ (trk.setQueue [0]).prioQueue := by decide

theorem witness_SetCfgTurnedAway :
    (aborting.free 0 ∧ aborting.settled ∧ beatGood 0xF 5 (wordParity 5) ∧
      (aborting.ctx (aborting.serving 0)).state = .aborting) ∧
    (trk.free 1 ∧ trk.settled ∧ (1 : PortId) ≠ trk.cfgPort ∧ (trk.ctx (trk.serving 1)).state = .idle) ∧
    (opened1.free 0 ∧ opened1.settled ∧ (opened1.ctx 1).state ≠ .idle) ∧
    (trk.acceptsCfg 0 5 (wordParity 5) ∧ 0x10 < (0x11 : Arg).toNat) := by decide

theorem witness_SetCfgRegionSetsAnEntry :
    (bare.acceptsCfg 0 0x32800002 (wordParity 0x32800002) ∧ bare.settled ∧
      (0x32800002 : Word).extractLsb' 30 2 = 0 ∧ (0x32800002 : Word).extractLsb' 28 2 = 3 ∧
      (0x32800002 : Word).extractLsb' 23 5 = 5 ∧ (0x32800002 : Word).extractLsb' 0 23 = 2) ∧
    ((0x3E000000 : Word).extractLsb' 23 5 = 28 ∧ (0x3E000000 : Word).extractLsb' 0 23 = 0) ∧
    (0 : Word).extractLsb' 28 2 = 0 ∧ (0x40000000 : Word).extractLsb' 30 2 ≠ 0 ∧
    ((0x3E800000 : Word).extractLsb' 23 5).toNat = 29 ∧ ((0x32000000 : Word).extractLsb' 23 5).toNat = 4 ∧
    (trk.acceptsCfg 0 0x32800002 (wordParity 0x32800002) ∧ trk.regions[(0 : Fin 8)] = some ⟨0, 28, .tracked⟩ ∧
      (⟨0, 28, .tracked⟩ : Region).holds 2 ∧ (⟨2, 5, .blocked⟩ : Region).holds 2) ∧
    (let s := region .blocked bare
     s.regions[(1 : Fin 8)] = some ⟨2, 5, .blocked⟩ ∧ (⟨2, 5, .blocked⟩ : Region).holds 2 ∧
      (∀ j : Fin 8, j ≠ 1 → s.regions[j] = none) ∧ (⟨2, 5, .blocked⟩ : Region).holds 3 = false) := by decide

theorem witness_SetCfgPairingLifetimeAndSlotCaps : (trk.settled ∧
    ([(0 : Word), 1, 2, 3, 4].all fun w => trk.acceptsCfg 0 w (wordParity w)) ∧ trk.joinA = false ∧ trk.joinB = false ∧
    joint.acceptsCfg 0 3 (wordParity 3) ∧ joint.joinA = true ∧ joint.joinB = true) ∧
    (trk.settled ∧
    ([(0 : Word), 1, 2, 0x1FFFF, 0x20000, 0x01013030, 0x00013030, 0x31013030].all fun w => trk.acceptsCfg 0 w (wordParity w)) ∧
    (∀ n < 4, 1 ≤ (laneByte 0x01013030 n).toNat ∧ (laneByte 0x01013030 n).toNat ≤ 48) ∧
    (laneByte 0x00013030 3).toNat = 0 ∧ 48 < (laneByte 0x31013030 3).toNat) ∧
    trk.joined 1 = false ∧ joint.joinA = true ∧ joint.joinB = true := by decide

theorem witness_SetCfgEscalationTickSourceAndFaultMasks : (trk.settled ∧
    ([(0x0101 : Word), 0xFF0F, 0x0010, 0x10000, 0x0100, 0x0001].all fun w => trk.acceptsCfg 0 w (wordParity w)) ∧
    (trk.setToken (.reserved 1) (some 3)).acceptsCfg 0 1 (wordParity 1)) ∧
    (trk.settled ∧
    ([(0 : Word), 7, 8, 0xFF, 0x100].all fun w => trk.acceptsCfg 0 w (wordParity w))) := by decide

theorem witness_PortThatCannotTakeACycle : ({ trk with rst := true } : State).rst = true ∧
    ((trk.setPort 0 (.reset true)).port 0).resetPin = true ∧
    (reading.port 1).cycle = some ⟨1, 0x40, 0, .reading [⟨0xF, 0, 0, false⟩] none⟩ ∧
    (arriving.port 1).cycle = some ⟨2, 0x40, 1, .arriving [beat 5]⟩ ∧
    (Instr.markStatus 1 0).pins = some (1, ⟨5, 0x00C0000, 0, [⟨0xF, 0, 0⟩]⟩) := by decide

theorem witness_WriteBeatsArrive : trk.takesCycle 1 ∧ [beat 5].length < 2 ^ (1 : BitVec 2).toNat ∧
    arriving.rst = false ∧ (arriving.port 1).resetPin = false ∧
    (arriving.port 1).cycle = some ⟨2, 0x40, 1, .arriving [beat 5]⟩ ∧ (arriving.port 1).answers = [] ∧
    2 ^ (1 : BitVec 2).toNat ≤ ([beat 5] ++ [beat 6]).length ∧
    ((after (.memWrite 1 0x40 ⟨2, [beat 5]⟩) trk).port 1).cycle = some ⟨2, 0x40, 2, .arriving [beat 5]⟩ := by decide

theorem witness_MarkAddressesDecode : (∀ i < 16, (6 : Arg).getLsbD i = (0x0040018 : Addr).getLsbD (i + 2)) ∧
    1 = ((0x0040018 : Addr).extractLsb' 18 4).toNat ∧ (0x0040018 : Addr).extractLsb' 22 6 = 0 ∧
    (0x0040018 : Addr).extractLsb' 0 2 = 0 ∧ (0x0440018 : Addr).extractLsb' 22 6 ≠ 0 ∧
    (0x004001A : Addr).extractLsb' 0 2 ≠ 0 ∧ 11 = ((0x02C0024 : Addr).extractLsb' 18 4).toNat ∧
    (∀ i < 16, (9 : Arg).getLsbD i = (0x02C0024 : Addr).getLsbD (i + 2)) ∧
    ((0x0140000 : Addr).extractLsb' 18 4).toNat ∉ [1, 2, 3, 4] := by decide

theorem witness_CyclesAreReadBackFromTheirPins : (Instr.setCfgLifetime 2 3 5 0).wellFormed ∧
    (Instr.setCfgLifetime 2 3 5 0).pins = some (2, ⟨6, 0x02C0030, 0, [⟨0xF, 5, 0⟩]⟩) ∧
    decodeCycle 2 ⟨6, 0x02C0030, 0, [⟨0xF, 5, 0⟩]⟩ = some (.setCfgLifetime 2 3 5 0) ∧ (trk.port 2).cycle = none := by
  decide

theorem witness_UngroupedRead : trk.free 0 ∧ legalBurst 0x40 8 ∧ (trk.ctx (trk.serving 0)).state ≠ .opened ∧
    trk.kindOf (lineOf 0x40) ≠ .blocked ∧ trk.lockedFor 0 (lineOf 0x40) = false ∧
    ((region .blocked bare).settled ∧ (region .blocked bare).kindOf (lineOf 0x40) = .blocked) ∧
    (paired.free 0 ∧ paired.settled ∧ paired.lockedFor 0 (lineOf 0x40)) := by decide

theorem witness_UngroupedAndDiscardedWrites : trk.free 0 ∧ trk.settled ∧ writeGood [beat 5] ∧ legalBurst 0x40 1 ∧
    trk.kindOf (lineOf 0x40) = .tracked ∧ (trk.ctx (trk.serving 0)).state = .idle ∧
    (heldTok.free 1 ∧ heldTok.settled ∧ heldTok.token = .held 0 ∧ heldTok.inFootprint 0 (lineOf 0x40)) ∧
    (paired.lockedFor 0 (lineOf 0x40)) ∧ (region .blocked bare).kindOf (lineOf 0x40) = .blocked ∧
    (doomed.free 0 ∧ doomed.settled ∧ (doomed.ctx (doomed.serving 0)).state = .doomed) := by decide

theorem witness_WriteOfBadParity : trk.free 0 ∧ trk.settled ∧ writeGood [badBeat] = false ∧ legalBurst 0x40 1 ∧
    (trk.ctx 0).state ≠ .opened ∧ opened.free 0 ∧ (opened.ctx 0).state = .opened := by decide

theorem witness_LockReads : trk.free 1 ∧ legalBurst 0x44 1 ∧ trk.settled ∧
    (trk.ctx (trk.serving 1)).state ≠ .opened ∧ trk.kindOf (lineOf 0x44) ≠ .blocked ∧
    trk.lockedFor 1 (lineOf 0x44) = false ∧ trk.token = .free ∧
    (heldTok.free 1 ∧ heldTok.settled ∧ heldTok.kindOf (lineOf 0x44) = .tracked ∧ heldTok.token = .held 0 ∧
      (heldTok.ctx 0).state = .opened ∧ heldTok.inFootprint 0 (lineOf 0x44)) ∧
    (paired.free 0 ∧ paired.lockedFor 0 (lineOf 0x44)) ∧ (region .blocked bare).kindOf (lineOf 0x44) = .blocked ∧
    (opened.free 0 ∧ opened.serving 0 = 0 ∧ (opened.ctx 0).state = .opened) := by decide

theorem witness_LockWrites : paired.takesCycle 1 ∧ legalBurst 0x44 1 ∧ (paired.port 1).pair = some (lineOf 0x44) ∧
    writeGood [beat 5] ∧ writeGood [badBeat] = false ∧ (paired.ctx (paired.serving 1)).state ≠ .opened ∧
    trk.free 1 ∧ (trk.ctx (trk.serving 1)).state ≠ .opened ∧ trk.kindOf (lineOf 0x44) = .tracked ∧
    trk.lockedFor 1 (lineOf 0x44) = false ∧ trk.token = .free ∧
    (opened.free 0 ∧ opened.serving 0 = 0 ∧ (opened.ctx 0).state = .opened ∧ (opened.port 0).pair = none) ∧
    ((opened.setPair 0 (some 2)).takesCycle 0 ∧ ((opened.setPair 0 (some 2)).port 0).pair = some (lineOf 0x44)) ∧
    (heldTok.free 1 ∧ heldTok.token = .held 0 ∧ (heldTok.ctx 0).state = .opened ∧
      heldTok.inFootprint 0 (lineOf 0x44)) ∧ (paired.free 0 ∧ paired.lockedFor 0 (lineOf 0x44)) ∧
    (region .blocked bare).free 1 ∧ (region .blocked bare).kindOf (lineOf 0x44) = .blocked := by decide

theorem witness_MalformedCyclesAreRefused : trk.free 0 ∧ trk.settled ∧
    malformed ⟨5, 0x002C0000, 0, [beat 0]⟩ = true ∧ malformed ⟨1, 0x44, 1, []⟩ = true ∧
    malformed ⟨3, 0x40, 1, []⟩ = true ∧ malformed ⟨7, 0, 0, []⟩ = true ∧ malformed ⟨2, 0x42, 0, [beat 0]⟩ = true ∧
    malformed ⟨6, 0x02400000, 0, [beat 0]⟩ = true ∧ 2 ^ (0 : BitVec 2).toNat ≤ [beat 0].length ∧
    malformed ⟨1, 0x40, 1, []⟩ = false ∧ malformed ⟨0, 0, 0, []⟩ = false := by decide

theorem witness_OtherCyclesBreakThePair : paired.takesCycle 1 ∧ (paired.port 1).pair = some 2 ∧
    paired.heldMatch ∧ lineOf 0x60 ≠ 2 ∧ legalBurst 0x41 1 = false ∧ malformed ⟨7, 0, 0, []⟩ ∧ malformed ⟨1, 0x44, 1, []⟩ ∧
    malformed ⟨2, 0x42, 0, [beat 0]⟩ ∧
    2 ^ (0 : BitVec 2).toNat ≤ [beat 0].length := by decide

theorem witness_GroupCyclesAreCounted : (trk.ctx 0).state ≠ .opened ∧ (opened.ctx 0).state = .opened ∧
    (opened.lifetimes.get 0).mode = .time ∧ (let s : State := { opened with lifetimes := .same ⟨2, .cycles⟩ }
     (s.lifetimes.get 0).mode = .cycles ∧ (s.lifetimes.get 0).limit ≠ 0 ∧
      min 65535 ((s.ctx 0).lifetime + 1) = (s.lifetimes.get 0).limit.toNat) := by decide

theorem witness_GroupCyclesNotTracked :
    (let s := opened.setPair 1 (some 2)
     s.free 0 ∧ (s.ctx 0).state = .opened ∧ s.lockedFor 0 (lineOf 0x40) ∧ legalBurst 0x40 1 ∧
      writeGood [beat 5]) ∧
    (∀ k ∈ [Kind.pass, .blocked], (region k opened).free 0 ∧ (region k opened).kindOf (lineOf 0x40) = k ∧
      (region k opened).lockedFor 0 (lineOf 0x40) = false ∧ ((region k opened).ctx 0).escape = false) ∧
    ((region .pass opened).setCtx 0 (group false true 0)).free 0 ∧
    (((region .pass opened).setCtx 0 (group false true 0)).ctx 0).escape = true := by decide

theorem witness_GroupReadInTheFootprint :
    (let s := opened.setReads 0 [2]
     s.free 0 ∧ s.slotOf 0 (lineOf 0x40) = none ∧ lineOf 0x40 ∈ s.reads 0) ∧
    (staged.free 0 ∧ legalBurst 0x40 2 ∧ staged.serving 0 = 0 ∧ (staged.ctx 0).state = .opened ∧
      staged.kindOf (lineOf 0x40) = .tracked ∧ staged.lockedFor 0 (lineOf 0x40) = false ∧
      staged.slotOf 0 (lineOf 0x40) = some 0 ∧ staged.slots[(0 : SlotId)] ≠ none ∧
      (staged.reads 0).length < 24) ∧
    24 ≤ ((staged.setReads 0 ((List.range 24).map fun n => BitVec.ofNat 23 (n + 9))).reads 0).length ∧
    (let s := staged.setSlot 0 (some ⟨false, 0, 2, mergeBytes 0x40 [badBeat] (Vector.replicate 32 none)⟩)
     s.free 0 ∧ s.slotOf 0 (lineOf 0x40) = some 0 ∧ s.kindOf (lineOf 0x40) = .tracked ∧
      s.lockedFor 0 (lineOf 0x40) = false ∧ (s.ctx 0).state = .opened ∧ lineOf 0x40 ∉ s.reads 0 ∧
      s.slots[(0 : SlotId)].any (fun b => (b.byteAt 0).any fun x => byteParity x.val != x.par)) := by decide

theorem witness_GroupReadOfANewLine : opened.free 0 ∧ legalBurst 0x40 1 ∧ (opened.ctx 0).state = .opened ∧
    opened.kindOf (lineOf 0x40) = .tracked ∧ opened.lockedFor 0 (lineOf 0x40) = false ∧
    opened.inFootprint 0 (lineOf 0x40) = false ∧ (opened.reads 0).length < 24 ∧
    (let s := openedB.setReads 0 [9, 10, 11, 12, 13, 14, 15, 16]
     (s.ctx 0).bounded = true ∧ s.footprintSize 0 = 8 ∧ s.inFootprint 0 (lineOf 0x40) = false) ∧
    24 = ((opened.setReads 0 ((List.range 24).map fun n => BitVec.ofNat 23 (n + 9))).reads 0).length ∧
    (let s := (opened2.setSlot 0 (some ⟨false, 1, 2, Vector.replicate 32 none⟩)).setOrder 1 [0]
     lineOf 0x40 ∈ s.writes 1 ∧ (s.ctx 1).state = .opened ∧ s.beats 0 1 ∧
      (s.setAges [1, 0]).beats 0 1 = false) ∧
    (staged.reads 0).Nodup ∧ (staged.writes 0).Nodup := by decide

theorem witness_GroupWriteToATrackedLine : staged.free 0 ∧ legalBurst 0x40 1 ∧ writeGood [beat 5] ∧
    lineOf 0x40 ∈ staged.writes 0 ∧ lineOf 0x60 ∉ staged.writes 0 ∧
    (let s := openedB.setReads 0 [9, 10, 11, 12, 13, 14, 15, 16]
     s.inFootprint 0 (lineOf 0x40) = false ∧ (s.ctx 0).bounded = true ∧ 8 ≤ s.footprintSize 0) ∧
    (let s := opened2.setReads 1 [2]
     (s.ctx 1).state = .opened ∧ s.inFootprint 1 (lineOf 0x40) ∧ s.beats 0 1 ∧
      (s.setToken (.held 1) none).beats 0 1 = false) ∧
    opened2.ages = [] ++ 0 :: [] ++ 1 :: [] ∧
    (0 ∈ [0, 2] ∧ heldTok.token = .held (0 : CtxId)) ∧ ((∀ h ∈ [(1 : CtxId)], opened2.token ≠ .held h) ∧
      opened2.ages = [0] ++ 1 :: [] ∧ ∀ x ∈ [(0 : CtxId)], x ∉ [(1 : CtxId)]) := by decide

theorem witness_StagingAndItsBytes : (⟨0, 0, 0⟩ : WriteBeat).en = 0 ∧ staged.slotOf 0 (lineOf 0x40) = some 0 ∧
    staged.slots[(0 : SlotId)] ≠ none ∧ staged.slotOf 0 (lineOf 0x60) = none ∧
    (staged.order 0).length < staged.caps.get 0 ∧ staged.slots[(1 : SlotId)] = none ∧
    (∀ j : SlotId, j < 1 → staged.slots[j] ≠ none) ∧
    (let s : State := { staged with caps := .same 1 }
     s.caps.get 0 ≤ (s.order 0).length) ∧ legalBurst 0x5C 1 ∧ (0x5C : Addr).toNat % 32 + 4 * 0 + 3 = 31 := by
  decide

theorem witness_AbortEndsTheGroup : (trk.ctx 0).state ≠ .opened ∧ (opened.ctx 0).state = .opened ∧
    (opened.ctx 0).recAddr = none ∧ (opened.ctx 0).release = false ∧
    (let s := opened.setCtx 0 { group false false 0 with recAddr := some 0x100 }
     (s.ctx 0).state = .opened ∧ (s.ctx 0).recAddr = some 0x100) ∧
    (let s := opened.setCtx 0 { group false false 0 with release := true }
     (s.ctx 0).state = .opened ∧ (s.ctx 0).recAddr = none ∧ (s.ctx 0).release = true) := by decide

theorem witness_AbortNoticeCountsAndQueues : openedB.escalationFormed ∧ openedB.token = .free ∧
    openedB.prioQueue = [] ∧ openedB.threshold.toNat = 4 ∧
    (let s : State := { openedB with threshold := 1 }
     s.escalationFormed ∧ s.threshold.toNat ≤ min 15 (s.counters.get 0 + 1) ∧ s.windowLen ≠ 0 ∧ 0 ∉ s.prioQueue) ∧
    (let s : State := { opened2.setToken (.held 1) (some 3) with threshold := 1 }
     s.escalationFormed ∧ 0 ∉ s.prioQueue ∧ s.token ≠ .free ∧ (s.setQueue [0]).escalationFormed) ∧
    (heldTok.escalationFormed ∧ heldTok.token = .held 0 ∧ heldTok.prioQueue = [] ∧
      (heldTok.setQueue [2]).escalationFormed) ∧
    (let s := openedB.setToken (.reserved 0) (some 3)
     s.escalationFormed ∧ s.token = .reserved 0) ∧
    (openedB.setCounter 0 15).escalationFormed := by decide

theorem witness_WindowTimerTicks : trk.escalationFormed ∧ trk.token = .free ∧ heldTok.escalationFormed ∧
    heldTok.token ≠ .free ∧ heldTok.window = some 5 ∧
    (let s := heldTok.setToken (.held 0) (some 1)
     s.escalationFormed ∧ s.window = some 1 ∧ s.prioQueue = [] ∧ (s.setQueue [1]).escalationFormed) := by decide

theorem witness_TickCountsTime : opened.rst = false ∧ opened.settled ∧ opened.tickSource ≠ 7 ∧
    (∀ c, (opened.lifetimes.get c).limit = 0) ∧
    (let s : State := { opened with tickSource := 7, tickLevel := false }
     s.settled ∧ s.tickSource = 7 ∧ s.tickLevel = false) ∧
    (let s : State := { opened with lifetimes := .same ⟨2, .time⟩ }
     (s.ctx 0).state = .opened ∧ min 65535 ((s.ctx 0).lifetime + 1) = (s.lifetimes.get 0).limit.toNat) := by decide

theorem witness_ExpiriesWhenDue :
    (let s : State := { opened with lifetimes := .same ⟨1, .time⟩ }
     (s.ctx 0).state = .opened ∧ (s.lifetimes.get 0).limit ≠ 0 ∧
      (s.ctx 0).lifetime = (s.lifetimes.get 0).limit.toNat) ∧ (trk.ctx 0).state ≠ .opened ∧ trk.token = .free ∧
    (let s := heldTok.setToken (.held 0) (some 0)
     s.token ≠ .free ∧ s.window = some 0 ∧ s.prioQueue = [] ∧ s.threshold ≠ 0 ∧ s.windowLen ≠ 0 ∧
      (s.setQueue [1]).prioQueue = 1 :: []) := by decide

theorem witness_QuiesceRequest : trk.rst = false ∧ trk.settled ∧ trk.bridge = .running ∧
    (∀ c, (trk.ctx c).state ≠ .opened) ∧ (opened.rst = false ∧ opened.bridge = .running) ∧
    ({ trk with bridge := .quiesced } : State).settled ∧ ({ trk with rst := true } : State).rst = true := by decide

theorem witness_GrantDecisionAndItsGrants : ((let s := trk.setReq 2 (some ⟨⟨false, 0x40, [⟨0xF, 0⟩]⟩, false⟩)
     s.bus = none ∧ s.winner = some (.port 2) ∧ s.reqs.get 2 ≠ none) ∧ trk.winner = none ∧ reading.bus ≠ none ∧
    (let s := staged.setJobs [⟨0, .commit 1 0 0, .requesting ⟨true, 0x40, [⟨0xF, 5⟩]⟩⟩]
     s.bus = none ∧ s.winner = some .engine) ∧
    trk.pointer ∈ [Requester.port 0, .port 1, .port 2, .port 3, .engine]) ∧
    ((let s := trk.setJobs [⟨0, .record 0x100 image, .requesting (recordBurst 0x100 image)⟩]
     s.bus = none ∧ s.winner = some .engine ∧ s.commitLocked (lineOf 0x100) = false) ∧
    (let s := (staged.setCtx 0 { group false false 0 with state := .committing }).setJobs
       [⟨1, .record 0x40 image, .requesting (recordBurst 0x40 image)⟩]
     s.bus = none ∧ s.winner = some .engine ∧ s.commitLocked (lineOf 0x40) = true)) := by decide

theorem witness_WaitingJobStarts :
    (let s := staged.setJobs [⟨0, .commit 1 0 0, .waiting⟩]
     s.jobs = ⟨0, .commit 1 0 0, .waiting⟩ :: [] ∧ (s.order 0)[0]? = some 0 ∧ s.slots[(0 : SlotId)].any SlotBody.good ∧
      (s.order 0).length ≤ 1) ∧
    ((after (.storageFault 0 0 1 false) staged).slots[(0 : SlotId)].any fun b => !b.good) ∧
    trk.kindOf (lineOf 0x100) ≠ .blocked ∧ (region .blocked bare).kindOf (lineOf 0x40) = .blocked ∧
    (∀ j ∈ trk.jobs.head?, j.phase ≠ .waiting) := by decide

theorem witness_ReadBeatIsAnswered : reading.bus.any (fun b => b.owner = .port 1 && !b.orphan && !b.burst.write &&
      b.burst.beats.length ≤ b.answered + 1) ∧
    (reading.port 1).cycle = some ⟨1, 0x40, 0, .reading [⟨0xF, 0, 0, false⟩] none⟩ ∧ beatGood 0xF 7 (wordParity 7) ∧
    beatGood 0xF 7 0 = false ∧
    (let s := after (.memRead 0 0x40 [0xF, 0xF]) opened
     s.bus.any (fun b => b.owner = .port 0 && b.answered + 1 < b.burst.beats.length && !b.bad) ∧
     (s.port 0).cycle =
       some ⟨1, 0x40, 1, .reading [⟨0xF, 0, 0, false⟩, ⟨0xF, 0, 0, false⟩] (some ⟨0, 0⟩)⟩ ∧
     (s.ctx 0).state = .opened ∧ (s.ctx 0).number = 0) := by decide

theorem witness_WriteBurstOfAPortCompletes : trk.bus = none ∧ trk.settled ∧ writing.settled ∧
    writing.bus.any (fun b => b.owner = .port 1 && b.burst.write && !b.orphan && !b.closing &&
      b.burst.beats.length ≤ b.answered + 1) ∧
    (after (.memWrite 1 0x40 ⟨1, [beat 5, beat 6]⟩) trk).bus.any (fun b => b.answered + 1 < b.burst.beats.length) ∧
    (after (.portReset 1) writing).bus.any (fun b => b.orphan) := by decide

theorem witness_EngineBurstCompletes : committing.settled ∧ committing.bus.any (fun b => b.owner = .engine &&
      b.burst.write && b.burst.beats.length ≤ b.answered + 1) ∧
    committing.jobs = ⟨0, .commit 1 0 0, .writing⟩ :: [] ∧ aborting.settled ∧ aborting.tailWaits ∧
    aborting.bus.any (fun b => b.owner = .engine && b.answered + 1 < b.burst.beats.length) ∧
    aborting.jobs.length = 1 := by decide

theorem witness_StorageFaultChangesAByte : (staged.slots[(0 : SlotId)].any fun b =>
      b.bytes[(3 : Fin 32)].isSome && b.bytes[(4 : Fin 32)].isNone) ∧ staged.slots[(47 : SlotId)] = none := by decide

theorem witness_CommitBurstCoversTheWrittenWords :
    let b : SlotBody := ⟨true, 0, 2, mergeBytes 0x40 [beat 5] (Vector.replicate 32 none)⟩
    (b.byteAt 0).isSome ∧ (b.byteAt 3).isSome ∧ ∀ k < 32, (b.byteAt k).isSome → 0 ≤ k ∧ k ≤ 3 := by decide

theorem witness_RecordWordsHoldTheImage : image.depth < 8 ∧ image.notice < 4 ∧ image.lifetime < 65536 ∧
    image.slots < 64 ∧ image.reads < 32 ∧ image.cycles < 65536 ∧ image.counter < 16 ∧
    (recordWords image).length = 8 := by decide

theorem witness_OutputLinesFollowTheState : reading.bus.any (fun b => !b.burst.write && b.burst.beats[b.answered]?.isSome) ∧
    writing.bus.any (fun b => b.burst.beats[b.answered]?.isSome &&
    decide (b.burst.beats.length ∈ [1, 2, 4, 8])) ∧ trk.bus = none := by decide

theorem witness_invariants : (∀ s ∈ [trk, opened2, staged, doomed, heldTok, paired], s.settled ∧ s.jobsMatch ∧
    s.tailWaits ∧ s.contextsFormed ∧ s.agesMatch ∧ s.readsBounded ∧ s.countsBounded ∧ s.escalationFormed ∧
    s.quiesceKept ∧ s.heldMatch ∧ s.requestsOwned ∧ s.pairsApart ∧ s.writesAlone) ∧ staged.storeFormed := by decide

theorem witness_StepKeeps : ∃ s t : State, s.settled ∧ s.jobsMatch ∧ s.tailWaits ∧ s.contextsFormed ∧ s.agesMatch ∧
    s.readsBounded ∧ s.countsBounded ∧ s.escalationFormed ∧ s.quiesceKept ∧ s.heldMatch ∧ s.requestsOwned ∧
    s.pairsApart ∧ s.storeFormed ∧ s.writesAlone ∧ step s = .next t :=
  ⟨{ staged with pending := [.markClose 0 0] }, committing, by decide, by decide, by decide, by decide, by decide,
    by decide, by decide, by decide, by decide, by decide, by decide, by decide, by decide, by decide, rfl⟩

end Sys2Proof.Tests
end

section
/-! The groups' marks: a cycle taken at a free port and a write mark there, said once for every mark, and with them
what DROP does by the state of its context. -/

namespace Sys2Proof.Machine

/-! ### A cycle at a free port -/

theorem State.free_iff (s : State) (p : PortId) :
    s.free p = true ↔ s.takesCycle p = true ∧ (s.port p).pair = none := by
  simp [State.free]

theorem State.beginCycle_eq_answered (s : State) (p : PortId) : s.beginCycle p = s.answered p [] := rfl

@[simp] theorem State.port_answered (s : State) (p q : PortId) (as : List Answer) :
    (s.answered p as).port q = if q = p then { s.port p with answers := as } else s.port q :=
  State.port_setPort ..

@[simp] theorem State.ctx_answered (s : State) (p : PortId) (as : List Answer) (c : CtxId) :
    (s.answered p as).ctx c = s.ctx c := rfl

@[simp] theorem State.serving_answered (s : State) (p q : PortId) (as : List Answer) :
    (s.answered p as).serving q = s.serving q := rfl

@[simp] theorem State.onHold_answered (s : State) (p : PortId) (as : List Answer) (c : CtxId) :
    (s.answered p as).onHold c = s.onHold c := rfl

/-- A free port takes its cycle, and what follows a claim follows it in the same step (R144, R157). -/
theorem State.cycle_of_free {s : State} {p : PortId} (h : s.free p) (f : State → State) :
    s.cycle p f = (f (s.answered p [])).settle := by
  obtain ⟨htakes, _⟩ := (s.free_iff p).mp h
  simp [State.cycle, htakes, State.beginCycle_eq_answered]

/-- A port that holds no pair breaks none (R152). -/
theorem State.breakPair_of_no_pair {s : State} {p : PortId} (h : (s.port p).pair = none) : s.breakPair p = s := by
  simp [State.breakPair, h]

/-! ### A refusal with a flag -/

/-- A refused write mark leaves its flag and one ERROR at its port, and nothing else (R154). -/
theorem State.refuseWriteMark_answered (s : State) (p : PortId) (f : Flag) :
    (s.answered p []).refuseWriteMark p f = s.flagged p f [.error] := by
  simp [State.refuseWriteMark, State.respond, State.setFlag, State.setPort, State.answered, State.flagged, State.port]

/-- Flags and answers are nothing that the arbiter reads: a settled state stays settled when a port is flagged. -/
theorem State.settle_flagged {s : State} (h : s.settled) (p : PortId) (f : Flag) (as : List Answer) :
    (s.flagged p f as).settle = s.flagged p f as := by
  refine State.settle_of_quiet h rfl rfl rfl rfl fun q => ?_
  rw [State.flagged, State.port_setPort]
  split
  · next hq => rw [hq]
  · rfl

/-! ### A write mark at a free port -/

theorem State.onHold_iff (s : State) (c : CtxId) :
    s.onHold c = true ↔ (s.ctx c).state = .committing ∨ (s.ctx c).state = .aborting := by
  simp [State.onHold]

/-- A write mark of good parity collides while its context is on hold, and else is handled by its own rule (R11,
R149, R154). -/
theorem State.writeMark_of_good {s : State} {p : PortId} (h : (s.port p).pair = none) {data : Word} {par : Lanes}
    (hgood : beatGood 0xF data par) (code : Nat) (arg : Arg) (f : State → State) :
    s.writeMark p code arg data par f =
      if s.onHold (s.serving p) then s.refuseWriteMark p .collision else f s := by
  simp only [State.writeMark, State.breakPair_of_no_pair h, hgood, Bool.not_true, Bool.false_eq_true, if_false]

/-! ### DROP (R20) -/

theorem exec_markDrop (p : PortId) (arg : Arg) (data : Word) (par : Lanes) (s : State) :
    exec (.markDrop p arg data par) s = execMarkDrop p arg data par s := rfl

theorem dropLegal_iff (arg : Arg) (data : Word) :
    dropLegal arg data = true ↔
      arg = 0 ∧ data.extractLsb' 8 24 = 0 ∧ 16 ≤ (data.extractLsb' 0 8).toNat := by
  simp [dropLegal, and_assoc]

/-- DROP past parity and collision is refused unless it is legal and its context OPEN. -/
theorem State.takeDrop_refused {s : State} {p : PortId} {arg : Arg} {data : Word}
    (h : dropLegal arg data = true → (s.ctx (s.serving p)).state ≠ .opened) :
    s.takeDrop p arg data = s.refuseWriteMark p .refused := by
  cases hlegal : dropLegal arg data with
  | false => simp [State.takeDrop, hlegal]
  | true => simp [State.takeDrop, hlegal, h hlegal]

/-- A legal DROP of an OPEN group aborts the group with DROP's code, without cause and party, and is answered DONE. -/
theorem State.takeDrop_opened {s : State} {p : PortId} {arg : Arg} {data : Word} (hlegal : dropLegal arg data)
    (hopen : (s.ctx (s.serving p)).state = .opened) :
    s.takeDrop p arg data =
      (s.abort (s.serving p) (.user (data.extractLsb' 0 8)) none none).respond p [.done] := by
  simp [State.takeDrop, hlegal, hopen]

/-- DROP of good parity at a free port: a collision on hold, and else its own rule on the port that has begun its
cycle. -/
theorem exec_markDrop_of_free {s : State} {p : PortId} (h : s.free p) {data : Word} {par : Lanes}
    (hgood : beatGood 0xF data par) (arg : Arg) :
    exec (.markDrop p arg data par) s =
      .next (if s.onHold (s.serving p) then s.flagged p .collision [.error]
        else (s.answered p []).takeDrop p arg data).settle := by
  obtain ⟨_, hpair⟩ := (s.free_iff p).mp h
  have hpair' : ((s.answered p []).port p).pair = none := by simp [hpair]
  rw [exec_markDrop, execMarkDrop, State.cycle_of_free h, State.dropCycle, State.writeMark_of_good hpair' hgood,
    State.refuseWriteMark_answered, State.serving_answered, State.onHold_answered]

/-- A user code is transient exactly when it is even (R90). -/
theorem AbortCode.transient_user_iff (b : Byte) : (AbortCode.user b).transient = true ↔ b.toNat % 2 = 0 := by
  simp [AbortCode.transient, BitVec.getLsbD, Nat.testBit_zero]

/-- Settles O12, by the state of the serving context: on hold, refused by R20, or OPEN with a legal code. -/
theorem dropByState : Obligations.DropByState := by
  refine ⟨fun s p arg data par c hfree hserving hgood => ?_, fun b => ⟨rfl, rfl, AbortCode.transient_user_iff b⟩⟩
  subst hserving
  rw [exec_markDrop_of_free hfree hgood]
  refine ⟨fun hhold hsettled => ?collides, fun hcommitting haborting hsettled hrefused => ?refused,
    fun hopen harg hbits hcode => ?aborts⟩
  case collides =>
    rw [if_pos ((s.onHold_iff _).mpr hhold), State.settle_flagged hsettled]
  case refused =>
    have hhold : ¬ s.onHold (s.serving p) := by simp [State.onHold_iff, hcommitting, haborting]
    have hopen : dropLegal arg data = true → (s.ctx (s.serving p)).state ≠ .opened := fun hlegal => by
      obtain ⟨harg, hbits, hcode⟩ := (dropLegal_iff arg data).mp hlegal
      exact ((hrefused.resolve_left (· harg)).resolve_left (· hbits)).resolve_left hcode.not_gt
    rw [if_neg hhold, State.takeDrop_refused (s := s.answered p []) hopen, State.refuseWriteMark_answered,
      State.settle_flagged hsettled]
  case aborts =>
    have hhold : ¬ s.onHold (s.serving p) := by simp [State.onHold_iff, hopen]
    have hlegal := (dropLegal_iff arg data).mpr ⟨harg, hbits, hcode⟩
    rw [if_neg hhold, State.takeDrop_opened (s := s.answered p []) hlegal hopen, State.serving_answered]

end Sys2Proof.Machine
end

section
/-! The burst of a commit line (R76): the lanes of a beat, the address of a word in its line, the shortest block over
two words, and the first and the last written word of a slot. -/

namespace Sys2Proof.Machine

/-! ### Lanes

The appends of the model have the widths of `Word` and `Lanes`; `change` shows them as the sums that the library's
append lemmas speak of. -/

/-- Bit `i` of a word from four lane bytes is a bit of the lane it falls in. -/
theorem getLsbD_ofLanes (b0 b1 b2 b3 : Byte) (i : Nat) :
    (ofLanes b0 b1 b2 b3).getLsbD i =
      if i < 8 then b0.getLsbD i else if i < 16 then b1.getLsbD (i - 8)
      else if i < 24 then b2.getLsbD (i - 16) else b3.getLsbD (i - 24) := by
  change (b3 ++ b2 ++ b1 ++ b0 : BitVec (8 + 8 + 8 + 8)).getLsbD i = _
  have h16 : i - 8 < 8 ↔ i < 16 := by omega
  have h24 : i - 16 < 8 ↔ i < 24 := by omega
  simp only [BitVec.getLsbD_append]
  simp only [Nat.sub_sub, Nat.reduceAdd, h16, h24]

theorem laneByte_laneWord (f : Nat → Byte) {k : Nat} (hk : k < 4) : laneByte (laneWord f) k = f k := by
  apply BitVec.eq_of_getLsbD_eq
  intro i hi
  rw [laneByte, BitVec.getLsbD_extractLsb', laneWord, getLsbD_ofLanes]
  interval_cases k <;>
    simp (disch := omega) only [hi, decide_true, Bool.true_and, if_true, if_pos, if_neg, Nat.reduceMul, Nat.zero_add,
      Nat.add_sub_cancel_left]

theorem getLsbD_laneBits (f : Nat → Bool) {k : Nat} (hk : k < 4) : (laneBits f).getLsbD k = f k := by
  change (BitVec.ofBool (f 3) ++ BitVec.ofBool (f 2) ++ BitVec.ofBool (f 1) ++ BitVec.ofBool (f 0) :
    BitVec (1 + 1 + 1 + 1)).getLsbD k = f k
  simp only [BitVec.getLsbD_append]
  interval_cases k <;> simp

/-! ### The words of a line -/

theorem toNat_lineAddr (l : Line) : (lineAddr l).toNat = l.toNat * 32 := by
  change (l ++ (0 : BitVec 5) : BitVec (23 + 5)).toNat = _
  rw [BitVec.toNat_append]
  simp [Nat.shiftLeft_eq]

/-- Word `w` of a line stands `4 * w` bytes above the line's first byte: no line reaches beyond the last address. -/
theorem toNat_beatAddr_lineAddr (l : Line) {w : Nat} (hw : w < 8) :
    (beatAddr (lineAddr l) w).toNat = l.toNat * 32 + w * 4 := by
  have hline := l.isLt
  rw [beatAddr, BitVec.toNat_add, toNat_lineAddr, BitVec.toNat_ofNat]
  omega

theorem toNat_lineOf (a : Addr) : (lineOf a).toNat = a.toNat / 32 := by
  have ha := a.isLt
  rw [lineOf, BitVec.extractLsb'_toNat, Nat.shiftRight_eq_div_pow]
  omega

theorem lineOf_beatAddr_lineAddr (l : Line) {w : Nat} (hw : w < 8) : lineOf (beatAddr (lineAddr l) w) = l := by
  apply BitVec.eq_of_toNat_eq
  rw [toNat_lineOf, toNat_beatAddr_lineAddr l hw]
  omega

/-! ### The shortest aligned block over two words -/

theorem burstLength_mem (f l : Nat) : burstLength f l ∈ [1, 2, 4, 8] := by
  unfold burstLength
  split_ifs <;> simp

theorem div_burstLength {f l : Nat} (hf : f < 8) (hl : l < 8) : f / burstLength f l = l / burstLength f l := by
  unfold burstLength
  split_ifs <;> omega

/-- No shorter length puts both words into one block. -/
theorem div_ne_of_lt_burstLength {f l m : Nat} (hm : m ∈ [1, 2, 4, 8]) (hlt : m < burstLength f l) :
    f / m ≠ l / m := by
  simp only [List.mem_cons, List.not_mem_nil, or_false] at hm
  unfold burstLength at hlt
  rcases hm with rfl | rfl | rfl | rfl <;> split_ifs at hlt <;> omega

/-- The block of `n` words that holds a word of the line starts in the line, and is a legal burst there. -/
theorem legalBurst_block (l : Line) {f n : Nat} (hf : f < 8) (hn : n ∈ [1, 2, 4, 8]) :
    f / n * n < 8 ∧ legalBurst (beatAddr (lineAddr l) (f / n * n)) n = true := by
  have hstart : f / n * n < 8 := (Nat.div_mul_le_self f n).trans_lt hf
  refine ⟨hstart, (legalBurst_iff _ _).mpr ⟨hn, ?_⟩⟩
  rw [toNat_beatAddr_lineAddr l hstart]
  simp only [List.mem_cons, List.not_mem_nil, or_false] at hn
  rcases hn with rfl | rfl | rfl | rfl <;> omega

/-! ### The written words of a slot -/

theorem SlotBody.lt_of_byteAt {b : SlotBody} {k : Nat} (h : (b.byteAt k).isSome) : k < 32 := by
  by_contra hk
  simp [SlotBody.byteAt, hk] at h

/-- A written byte stands in one of the eight words of its line. -/
theorem SlotBody.div_lt_of_byteAt {b : SlotBody} {k : Nat} (h : (b.byteAt k).isSome) : k / 4 < 8 :=
  Nat.div_lt_of_lt_mul (SlotBody.lt_of_byteAt h)

theorem mem_lineWords (w : Nat) : w ∈ lineWords ↔ w < 8 := by
  simp only [lineWords, List.mem_cons, List.not_mem_nil, or_false]
  omega

theorem SlotBody.wordWritten_iff (b : SlotBody) (w : Nat) :
    b.wordWritten w = true ↔ ∃ k, k / 4 = w ∧ (b.byteAt k).isSome := by
  simp only [SlotBody.wordWritten, List.any_eq_true]
  constructor
  · rintro ⟨n, hn, hwritten⟩
    simp only [List.mem_cons, List.not_mem_nil, or_false] at hn
    exact ⟨4 * w + n, by omega, hwritten⟩
  · rintro ⟨k, rfl, hwritten⟩
    refine ⟨k % 4, ?_, by rwa [Nat.div_add_mod]⟩
    simp only [List.mem_cons, List.not_mem_nil, or_false]
    omega

/-- The words with a written byte, as the burst of the slot takes them, in the order of the line. -/
def SlotBody.writtenWords (b : SlotBody) : List Nat := lineWords.filter b.wordWritten

theorem SlotBody.mem_writtenWords (b : SlotBody) (w : Nat) :
    w ∈ b.writtenWords ↔ ∃ k, k / 4 = w ∧ (b.byteAt k).isSome := by
  rw [SlotBody.writtenWords, List.mem_filter, b.wordWritten_iff, and_iff_right_iff_imp]
  rintro ⟨k, rfl, hwritten⟩
  exact (mem_lineWords _).mpr (SlotBody.div_lt_of_byteAt hwritten)

theorem SlotBody.pairwise_writtenWords (b : SlotBody) : b.writtenWords.Pairwise (· ≤ ·) :=
  List.Pairwise.filter _ (by decide)

/-- The burst of a slot begins its block at the first and ends it at the last of the written words. -/
theorem SlotBody.commitBurst_eq {b : SlotBody} {f l : Nat} (hf : b.writtenWords.head? = some f)
    (hl : b.writtenWords.getLast? = some l) :
    b.commitBurst =
      { write := true
        addr := beatAddr (lineAddr b.line) (f / burstLength f l * burstLength f l)
        beats := (List.range (burstLength f l)).map fun i => b.beat (f / burstLength f l * burstLength f l + i) } := by
  rw [SlotBody.writtenWords] at hf hl
  simp only [SlotBody.commitBurst, hf, hl, Option.getD_some]

section
variable {b : SlotBody} {lo hi : Nat}

/-- The first written word is the word of the first written byte. -/
theorem SlotBody.head?_writtenWords (hlo : (b.byteAt lo).isSome) (hfirst : ∀ k, (b.byteAt k).isSome → lo ≤ k) :
    b.writtenWords.head? = some (lo / 4) := by
  have hmem : lo / 4 ∈ b.writtenWords := (b.mem_writtenWords _).mpr ⟨lo, rfl, hlo⟩
  have hne : b.writtenWords ≠ [] := List.ne_nil_of_mem hmem
  obtain ⟨k, hk, hwritten⟩ := (b.mem_writtenWords _).mp (List.head_mem hne)
  have hle : b.writtenWords.head hne ≤ lo / 4 := b.pairwise_writtenWords.rel_head hmem
  have hge : lo / 4 ≤ b.writtenWords.head hne := hk ▸ Nat.div_le_div_right (hfirst k hwritten)
  rw [List.head?_eq_some_head hne, hle.antisymm hge]

/-- The last written word is the word of the last written byte. -/
theorem SlotBody.getLast?_writtenWords (hhi : (b.byteAt hi).isSome) (hlast : ∀ k, (b.byteAt k).isSome → k ≤ hi) :
    b.writtenWords.getLast? = some (hi / 4) := by
  have hmem : hi / 4 ∈ b.writtenWords := (b.mem_writtenWords _).mpr ⟨hi, rfl, hhi⟩
  have hne : b.writtenWords ≠ [] := List.ne_nil_of_mem hmem
  obtain ⟨k, hk, hwritten⟩ := (b.mem_writtenWords _).mp (List.getLast_mem hne)
  have hge : hi / 4 ≤ b.writtenWords.getLast hne := b.pairwise_writtenWords.rel_getLast hmem
  have hle : b.writtenWords.getLast hne ≤ hi / 4 := hk ▸ Nat.div_le_div_right (hlast k hwritten)
  rw [List.getLast?_eq_some_getLast hne, hle.antisymm hge]

end

/-- A beat enables and carries the written bytes of its word, and 00h in the other lanes. -/
theorem SlotBody.beat_lane (b : SlotBody) (w : Nat) {k : Nat} (hk : k < 4) :
    (b.beat w).en.getLsbD k = (b.byteAt (4 * w + k)).isSome ∧
    laneByte (b.beat w).data k = (b.byteAt (4 * w + k)).elim 0 StoredByte.val :=
  ⟨getLsbD_laneBits (fun n => (b.byteAt (4 * w + n)).isSome) hk,
    laneByte_laneWord (fun n => (b.byteAt (4 * w + n)).elim 0 StoredByte.val) hk⟩

/-- Settles O50: the burst of the first and the last written word, with the facts about its block and its beats. -/
theorem commitBurstCoversTheWrittenWords : Obligations.CommitBurstCoversTheWrittenWords := by
  rintro b lo hi _ hlo hhi hspan rfl
  have hf := SlotBody.div_lt_of_byteAt hlo
  have hl := SlotBody.div_lt_of_byteAt hhi
  have hn := burstLength_mem (lo / 4) (hi / 4)
  obtain ⟨hstart, hlegal⟩ := legalBurst_block b.line hf hn
  rw [SlotBody.commitBurst_eq (SlotBody.head?_writtenWords hlo fun k hk => (hspan k hk).1)
    (SlotBody.getLast?_writtenWords hhi fun k hk => (hspan k hk).2)]
  refine ⟨burstLength (lo / 4) (hi / 4), _, hn, div_burstLength hf hl, fun m hm => div_ne_of_lt_burstLength hm,
    rfl, rfl, toNat_beatAddr_lineAddr b.line hstart, by simp, hlegal, lineOf_beatAddr_lineAddr b.line hstart,
    fun i x hx k hk => ?beats⟩
  case beats =>
    simp only [List.getElem?_map, Option.map_eq_some_iff, List.getElem?_eq_some_iff, List.getElem_range] at hx
    obtain ⟨_, ⟨_, rfl⟩, rfl⟩ := hx
    exact b.beat_lane _ hk

end Sys2Proof.Machine
end

section
/-! The window timer (R137): what an expiry leaves, with an empty queue and with a queued context, and the cases of a
tick. -/

namespace Sys2Proof.Machine

/-- A context is queued only while escalation is on (R130). -/
theorem State.escalationOn_of_queued {s : State} {h : CtxId} {r : List CtxId} (hs : s.escalationFormed)
    (hq : s.prioQueue = h :: r) : s.escalationOn := by
  have hoff : s.escalationOn || (s.prioQueue.isEmpty && s.token == .free) := by
    simp only [State.escalationFormed, Bool.and_eq_true] at hs
    obtain ⟨⟨_, hoff⟩, _⟩ := hs
    exact hoff
  simpa [hq] using hoff

/-! ### The window expiry -/

theorem State.windowExpires_of_queue_nil {s : State} (hq : s.prioQueue = []) :
    s.windowExpires = { s with token := .free, window := none } :=
  (State.grantToken_free (s := s.freeToken) rfl).1 hq

theorem State.windowExpires_of_queue_cons {s : State} {h : CtxId} {r : List CtxId} (hon : s.escalationOn)
    (hq : s.prioQueue = h :: r) :
    s.windowExpires = { s with token := .reserved h, prioQueue := r, window := s.windowFromW } :=
  (State.grantToken_free (s := s.freeToken) rfl).2 h r hq hon

/-! ### The cases of a tick -/

theorem State.windowTick_of_free {s : State} (hfree : s.token = .free) : s.windowTick = s := by
  simp [State.windowTick, hfree]

theorem State.windowTick_of_unlimited {s : State} (hw : s.window = none) : s.windowTick = s := by
  simp [State.windowTick, hw]

/-- The timer of an owned token expires with the tick that brings it to 0, and counts with any tick before. -/
theorem State.windowTick_of_running {s : State} {n : Nat} (howned : s.token ≠ .free) (hw : s.window = some n) :
    s.windowTick = if n ≤ 1 then s.windowExpires else { s with window := some (n - 1) } := by
  simp [State.windowTick, howned, hw, State.setToken]

/-- Settles O39, by the cases of a tick; that the queue's head is granted needs escalation on, which a queued context
shows. -/
theorem windowTimerTicks : Obligations.WindowTimerTicks := by
  intro s hs
  refine ⟨fun hstill => ?still, fun n howned hw hn => ?counts, fun howned hw => ?expires⟩
  case still => exact hstill.elim State.windowTick_of_free State.windowTick_of_unlimited
  case counts => rw [State.windowTick_of_running howned hw, if_neg hn.not_ge]
  case expires =>
    rw [State.windowTick_of_running howned hw, if_pos le_rfl]
    exact ⟨State.windowExpires_of_queue_nil, fun h r hq =>
      State.windowExpires_of_queue_cons (State.escalationOn_of_queued hs hq) hq⟩

end Sys2Proof.Machine
end

section
/-! What an abort does, field by field (R91, R94): said once for the abort of an OPEN group, and what follows from it
for several aborts of one claim. -/

namespace Sys2Proof.Machine

/-! ### Slots set free -/

@[simp] theorem State.order_freeSlots (s : State) (c d : CtxId) :
    (s.freeSlots c).order d = if d = c then [] else s.order d := by
  simp [State.freeSlots, State.order, State.setSlots, State.setOrder]

@[simp] theorem State.getElem_slots_freeSlots (s : State) (c : CtxId) (i : SlotId) :
    (s.freeSlots c).slots[i.val] = if i ∈ s.order c then none else s.slots[i] := by
  simp [State.freeSlots, State.setSlots, State.setOrder]

/-! ### The abort of an OPEN group -/

/-- The fields of a context after its abort: ABORTING with a captured record address, else IDLE with the release flag
and DOOMED without (R94). -/
def Context.afterAbort (x : Context) (code : AbortCode) : Context :=
  let y := { x with lastCode := some code }
  if x.recAddr.isSome then { y with state := .aborting }
  else if x.release then y.toIdle else { y with state := .doomed }

/-- The record job of an abort: one when its context captured a record address (R99). -/
def State.abortJobs (s : State) (c : CtxId) (code : AbortCode) (cause : Option Addr) (party : Option Party) :
    List Job :=
  (s.ctx c).recAddr.toList.map fun a =>
    ⟨c, .record a (s.image c code cause party ((s.abortNotice c code (s.ctx c).bounded).counters.get c)), .waiting⟩

theorem State.abortGoesTo_eq (s : State) (c : CtxId) (code : AbortCode) (i : Image) :
    s.abortGoesTo c code i =
      (s.setCtx c ((s.ctx c).afterAbort code)).setJobs
        (s.jobs ++ (s.ctx c).recAddr.toList.map fun a => ⟨c, .record a i, .waiting⟩) := by
  unfold State.abortGoesTo Context.afterAbort
  cases h : (s.ctx c).recAddr with
  | none =>
    simp only [h]
    cases (s.ctx c).release <;> simp [State.setJobs, State.setCtx]
  | some a => simp [h]

section
variable (s : State) (c : CtxId) (code : AbortCode) (cause : Option Addr) (party : Option Party)

/-- The state in which the aborted context is sent on: contention told, slots free, read set empty, off the age list,
NOTICE set where it is allowed (R91). -/
def State.beforeGoing (s : State) (c : CtxId) (code : AbortCode) : State :=
  let s1 := s.abortNotice c code (s.ctx c).bounded
  let s2 := ((s1.freeSlots c).setReads c []).setAges (s1.ages.filter fun d => d ≠ c)
  if noticeAllows (s.ctx c).notice code.cls then s2.setFlags (s2.served c) .notice else s2

theorem State.takeAbort_eq :
    s.takeAbort c code cause party =
      ((s.beforeGoing c code).setCtx c ((s.ctx c).afterAbort code)).setJobs
        (s.jobs ++ s.abortJobs c code cause party) := by
  have hctx : (s.beforeGoing c code).ctx c = s.ctx c := by
    unfold State.beforeGoing
    simp only
    split <;> simp
  have hjobs : (s.beforeGoing c code).jobs = s.jobs := by
    unfold State.beforeGoing
    simp only
    split <;> simp
  have h : s.takeAbort c code cause party = (s.beforeGoing c code).abortGoesTo c code
      (s.image c code cause party ((s.abortNotice c code (s.ctx c).bounded).counters.get c)) := rfl
  rw [h, State.abortGoesTo_eq, hctx, hjobs]
  rfl

@[simp] theorem State.beforeGoing_fields :
    (∀ d, (s.beforeGoing c code).ctx d = s.ctx d) ∧
    (∀ d, (s.beforeGoing c code).order d = if d = c then [] else s.order d) ∧
    (∀ d, (s.beforeGoing c code).reads d = if d = c then [] else s.reads d) ∧
    (s.beforeGoing c code).ages = s.ages.filter (fun d => d ≠ c) ∧
    (∀ i : SlotId, (s.beforeGoing c code).slots[i.val] = if i ∈ s.order c then none else s.slots[i]) ∧
    (s.beforeGoing c code).token = (s.abortNotice c code (s.ctx c).bounded).token ∧
    (s.beforeGoing c code).prioQueue = (s.abortNotice c code (s.ctx c).bounded).prioQueue ∧
    (s.beforeGoing c code).window = (s.abortNotice c code (s.ctx c).bounded).window ∧
    (s.beforeGoing c code).counters = (s.abortNotice c code (s.ctx c).bounded).counters := by
  unfold State.beforeGoing
  simp only
  split <;> simp

@[simp] theorem State.ctx_takeAbort (d : CtxId) :
    (s.takeAbort c code cause party).ctx d = if d = c then (s.ctx c).afterAbort code else s.ctx d := by
  simp [State.takeAbort_eq]

@[simp] theorem State.jobs_takeAbort :
    (s.takeAbort c code cause party).jobs = s.jobs ++ s.abortJobs c code cause party := by
  simp [State.takeAbort_eq]

@[simp] theorem State.order_takeAbort (d : CtxId) :
    (s.takeAbort c code cause party).order d = if d = c then [] else s.order d := by
  simp [State.takeAbort_eq]

@[simp] theorem State.reads_takeAbort (d : CtxId) :
    (s.takeAbort c code cause party).reads d = if d = c then [] else s.reads d := by
  simp [State.takeAbort_eq]

@[simp] theorem State.ages_takeAbort :
    (s.takeAbort c code cause party).ages = s.ages.filter (fun d => d ≠ c) := by
  simp [State.takeAbort_eq]

@[simp] theorem State.getElem_slots_takeAbort (i : SlotId) :
    (s.takeAbort c code cause party).slots[i.val] = if i ∈ s.order c then none else s.slots[i] := by
  simp [State.takeAbort_eq]

/-- In the Contention Unit an abort is its abort notice (R91, R133). -/
theorem State.contention_takeAbort :
    (s.takeAbort c code cause party).token = (s.abortNotice c code (s.ctx c).bounded).token ∧
    (s.takeAbort c code cause party).prioQueue = (s.abortNotice c code (s.ctx c).bounded).prioQueue ∧
    (s.takeAbort c code cause party).window = (s.abortNotice c code (s.ctx c).bounded).window ∧
    (s.takeAbort c code cause party).counters = (s.abortNotice c code (s.ctx c).bounded).counters := by
  simp [State.takeAbort_eq]

end

/-- An aborted context is not OPEN and not COMMITTING. -/
theorem Context.state_afterAbort (x : Context) (code : AbortCode) :
    (x.afterAbort code).state = .aborting ∨ (x.afterAbort code).state = .idle ∨
      (x.afterAbort code).state = .doomed := by
  unfold Context.afterAbort
  simp only
  split_ifs
  · exact .inl rfl
  · exact .inr (.inl rfl)
  · exact .inr (.inr rfl)

theorem Context.afterAbort_not_opened (x : Context) (code : AbortCode) : (x.afterAbort code).state ≠ .opened := by
  rcases x.state_afterAbort code with h | h | h <;> simp [h]

/-! ### Abort requests -/

section
variable (s : State) (c : CtxId) (code : AbortCode) (cause : Option Addr) (party : Option Party)

/-- After its abort request a context is not OPEN, and every other context is what it was (R88, R94). -/
theorem State.ctx_abort_ne {d : CtxId} (h : d ≠ c) : (s.abort c code cause party).ctx d = s.ctx d := by
  unfold State.abort
  split <;> simp [h]

theorem State.abort_closes : ((s.abort c code cause party).ctx c).state ≠ .opened := by
  unfold State.abort
  split
  · simpa using Context.afterAbort_not_opened _ code
  · assumption

/-- The part that several aborts can only shrink: OPEN and COMMITTING contexts, their read sets and write sets. -/
structure State.Shrinks (s t : State) : Prop where
  opened : ∀ d, (t.ctx d).state = .opened → (s.ctx d).state = .opened
  committing : ∀ d, (t.ctx d).state = .committing → (s.ctx d).state = .committing
  reads : ∀ d, t.reads d ⊆ s.reads d
  writes : ∀ d, t.writes d ⊆ s.writes d

theorem State.Shrinks.refl : State.Shrinks s s :=
  ⟨fun _ h => h, fun _ h => h, fun _ => List.Subset.refl _, fun _ => List.Subset.refl _⟩

theorem State.Shrinks.trans {s t u : State} (h : State.Shrinks s t) (k : State.Shrinks t u) : State.Shrinks s u :=
  ⟨fun d hd => h.opened d (k.opened d hd), fun d hd => h.committing d (k.committing d hd),
    fun d => List.Subset.trans (k.reads d) (h.reads d), fun d => List.Subset.trans (k.writes d) (h.writes d)⟩

theorem State.takeAbort_shrinks : State.Shrinks s (s.takeAbort c code cause party) := by
  refine ⟨fun d h => ?_, fun d h => ?_, fun d => ?_, fun d l h => ?_⟩
  · rw [State.ctx_takeAbort] at h
    split at h
    · exact absurd h (Context.afterAbort_not_opened _ _)
    · exact h
  · rw [State.ctx_takeAbort] at h
    split at h
    · rcases Context.state_afterAbort (s.ctx c) code with hx | hx | hx <;> simp [hx] at h
    · exact h
  · rw [State.reads_takeAbort]
    split <;> simp
  · obtain ⟨i, b, hi, hb, hl⟩ := (State.mem_writes _ _ _).mp h
    rw [State.order_takeAbort] at hi
    rw [Fin.getElem_fin, State.getElem_slots_takeAbort] at hb
    split_ifs at hi hb with hd hc
    · simp at hi
    · exact (State.mem_writes _ _ _).mpr ⟨i, b, hi, hb, hl⟩

theorem State.abort_shrinks : State.Shrinks s (s.abort c code cause party) := by
  unfold State.abort
  split
  · exact s.takeAbort_shrinks c code cause party
  · exact .refl s

theorem State.abortAll_shrinks (cs : List CtxId) : State.Shrinks s (s.abortAll cs code cause party) :=
  State.abortAll_invariant (State.Shrinks s) cs code cause party
    (fun t c _ h => h.trans (t.abort_shrinks c code cause party)) (fun _ _ h => ⟨h.1, h.2, h.3, h.4⟩) s (.refl s)

/-- Several aborts leave a context that is not among them. -/
theorem State.ctx_abortAll_of_not_mem {cs : List CtxId} (h : c ∉ cs) :
    (s.abortAll cs code cause party).ctx c = s.ctx c :=
  State.abortAll_invariant (fun t => t.ctx c = s.ctx c) cs code cause party
    (fun t _ hd ht => (t.ctx_abort_ne _ code cause party (ne_of_mem_of_not_mem hd h).symm).trans ht)
    (fun _ _ ht => ht) s rfl

/-- Several aborts leave the read set of a context that is not among them. -/
theorem State.reads_abortAll_of_not_mem {cs : List CtxId} (h : c ∉ cs) :
    (s.abortAll cs code cause party).reads c = s.reads c :=
  State.abortAll_invariant (fun t => t.reads c = s.reads c) cs code cause party
    (fun t d hd ht => by
      unfold State.abort
      split
      · simpa [(ne_of_mem_of_not_mem hd h).symm] using ht
      · exact ht)
    (fun _ _ ht => ht) s rfl

/-- What a step of a fold makes true and every step keeps, the fold makes true of the members of its list. -/
theorem foldl_reaches {α β : Type} (P : α → β → Prop) (g : β → α → β) (hmake : ∀ t a, P a (g t a))
    (hkeep : ∀ t a b, P a t → P a (g t b)) (l : List α) (s : β) : ∀ a ∈ l, P a (l.foldl g s) := by
  induction l generalizing s with
  | nil => simp
  | cons b l ih =>
    intro a ha
    rcases List.mem_cons.mp ha with rfl | ha
    · exact foldl_invariant (P a) g l (fun t b _ => hkeep t a b) _ (hmake s a)
    · exact ih _ a ha

/-- None of several aborted contexts is OPEN after it (R98). -/
theorem State.abortAll_closes (cs : List CtxId) :
    ∀ d ∈ cs, ((s.abortAll cs code cause party).ctx d).state ≠ .opened := by
  intro d hd
  unfold State.abortAll
  simp only [State.inFreeOrder]
  exact foldl_reaches (fun d (t : State) => (t.ctx d).state ≠ .opened) _
    (fun t d => t.abort_closes d code cause party)
    (fun t d e h k => h ((t.abort_shrinks e code cause party).opened d k)) _ _ d (mem_freeOrder.mpr hd)

end

end Sys2Proof.Machine
end

section
/-! The ends of jobs, field by field: what commit finish and the finish of a record job do to contexts, slots, lists
and ports (R80, R81, R103, R183). -/

namespace Sys2Proof.Machine

/-- The drain test writes the bridge state alone (R183). -/
theorem State.drainTest_eq (s : State) :
    s.drainTest = s.setBridge (if s.bridge = .draining && s.drained then .quiesced else s.bridge) := by
  unfold State.drainTest
  split <;> rfl

@[simp] theorem State.cycle_setFlags (s : State) (ps : List PortId) (f : Flag) (q : PortId) :
    ((s.setFlags ps f).port q).cycle = (s.port q).cycle := by
  rw [State.port_setFlags]

@[simp] theorem State.pair_setFlags (s : State) (ps : List PortId) (f : Flag) (q : PortId) :
    ((s.setFlags ps f).port q).pair = (s.port q).pair := by
  rw [State.port_setFlags]

@[simp] theorem State.ctx_idle (s : State) (c d : CtxId) :
    (s.idle c).ctx d = if d = c then (s.ctx c).toIdle else s.ctx d := State.ctx_setCtx ..

/-- The port of a held CLOSE after its answer, and the other ports (R18). -/
theorem State.port_answerHeld (s : State) (p q : PortId) (w : Word) :
    (s.answerHeld p w).port q =
      if q = p then { s.port p with cycle := none, answers := (s.port p).answers ++ [.word w] } else s.port q := by
  unfold State.answerHeld
  split <;> simp_all

/-! ### The answer to a held CLOSE -/

/-- A held CLOSE, if there is one, is answered with a result word. -/
def State.answerIfHeld (s : State) (held : Option PortId) (w : Word) : State :=
  held.elim s fun p => s.answerHeld p w

theorem State.answerIfHeld_fields (s : State) (held : Option PortId) (w : Word) :
    (∀ d, (s.answerIfHeld held w).ctx d = s.ctx d) ∧ (∀ d, (s.answerIfHeld held w).order d = s.order d) ∧
    (s.answerIfHeld held w).slots = s.slots ∧ (s.answerIfHeld held w).jobs = s.jobs ∧
    (s.answerIfHeld held w).bridge = s.bridge ∧
    (∀ q, ((s.answerIfHeld held w).port q).cycle = if held = some q then none else (s.port q).cycle) ∧
    (∀ q, ((s.answerIfHeld held w).port q).pair = (s.port q).pair) := by
  cases held with
  | none => simp [State.answerIfHeld]
  | some p =>
    refine ⟨fun _ => rfl, fun _ => rfl, rfl, rfl, rfl, fun q => ?_, fun q => ?_⟩ <;>
      simp only [State.answerIfHeld, Option.elim_some, State.port_answerHeld, Option.some.injEq] <;>
      grind

/-! ### Commit finish -/

/-- Commit finish up to the context's becoming IDLE: slots free, flags for failed lines, the held CLOSE answered. -/
def State.commitAnswered (s : State) (c : CtxId) (failed : Nat) : State :=
  let s1 := s.freeSlots c
  let s2 := if failed = 0 then s1 else (s1.setFlags (s1.served c) .torn).setFlags (s1.served c) .memerr
  s2.answerIfHeld (s.ctx c).held (if failed = 0 then plainResult .committed else tornResult failed)

theorem State.commitFinish_eq (s : State) (c : CtxId) (failed : Nat) :
    s.commitFinish c failed = ((s.commitAnswered c failed).idle c).drainTest := by
  have hheld : ∀ t : State, t = (if failed = 0 then s.freeSlots c else
      ((s.freeSlots c).setFlags ((s.freeSlots c).served c) .torn).setFlags ((s.freeSlots c).served c) .memerr) →
      (t.ctx c).held = (s.ctx c).held := by
    rintro t rfl
    split <;> simp
  unfold State.commitFinish State.commitAnswered
  simp only [hheld _ rfl]
  cases (s.ctx c).held <;> rfl

section
variable (s : State) (c : CtxId) (failed : Nat)

theorem State.commitAnswered_fields :
    (∀ d, (s.commitAnswered c failed).ctx d = s.ctx d) ∧
    (∀ d, (s.commitAnswered c failed).order d = if d = c then [] else s.order d) ∧
    (∀ i : SlotId, (s.commitAnswered c failed).slots[i.val] = if i ∈ s.order c then none else s.slots[i.val]) ∧
    (s.commitAnswered c failed).bridge = s.bridge ∧ (s.commitAnswered c failed).jobs = s.jobs ∧
    (∀ q, ((s.commitAnswered c failed).port q).cycle =
      if (s.ctx c).held = some q then none else (s.port q).cycle) ∧
    (∀ q, ((s.commitAnswered c failed).port q).pair = (s.port q).pair) := by
  unfold State.commitAnswered
  simp only
  refine ⟨fun d => ?_, fun d => ?_, fun i => ?_, ?_, ?_, fun q => ?_, fun q => ?_⟩ <;> split <;>
    simp [State.answerIfHeld_fields]

@[simp] theorem State.ctx_commitFinish (d : CtxId) :
    (s.commitFinish c failed).ctx d = if d = c then (s.ctx c).toIdle else s.ctx d := by
  simp [State.commitFinish_eq, State.drainTest_eq, State.commitAnswered_fields]

@[simp] theorem State.order_commitFinish (d : CtxId) :
    (s.commitFinish c failed).order d = if d = c then [] else s.order d := by
  simp [State.commitFinish_eq, State.drainTest_eq, State.commitAnswered_fields]

@[simp] theorem State.getElem_slots_commitFinish (i : SlotId) :
    (s.commitFinish c failed).slots[i.val] = if i ∈ s.order c then none else s.slots[i.val] := by
  simp [State.commitFinish_eq, State.drainTest_eq, State.commitAnswered_fields]

@[simp] theorem State.cycle_commitFinish (q : PortId) :
    ((s.commitFinish c failed).port q).cycle = if (s.ctx c).held = some q then none else (s.port q).cycle := by
  simp [State.commitFinish_eq, State.drainTest_eq, State.commitAnswered_fields]

@[simp] theorem State.pair_commitFinish (q : PortId) :
    ((s.commitFinish c failed).port q).pair = (s.port q).pair := by
  simp [State.commitFinish_eq, State.drainTest_eq, State.commitAnswered_fields]

end

/-! ### The finish of a record job -/

/-- A context after the finish of its record job: IDLE when a CLOSE was held or its release flag is set, else DOOMED
(R103). -/
def Context.afterRecord (x : Context) : Context :=
  if x.held.isSome || x.release then x.toIdle else { x with state := .doomed }

/-- The flags of the finish of a record job: RECSKIP and MEMERR on the served ports. -/
def State.recordFlagged (s : State) (c : CtxId) (skipped memErr : Bool) : State :=
  let s1 := if skipped then s.setFlags (s.served c) .recskip else s
  if memErr then s1.setFlags (s1.served c) .memerr else s1

/-- The finish of a record job up to the change of its context: flags, and the held CLOSE answered. -/
def State.recordAnswered (s : State) (c : CtxId) (skipped memErr : Bool) : State :=
  (s.recordFlagged c skipped memErr).answerIfHeld (s.ctx c).held
    (abortResult .aborted (s.ctx c).lastCode (s.ctx c).depth)

section
variable (s : State) (c : CtxId) (skipped memErr : Bool)

theorem State.recordFlagged_fields :
    (∀ d, (s.recordFlagged c skipped memErr).ctx d = s.ctx d) ∧
    (s.recordFlagged c skipped memErr).bridge = s.bridge ∧ (s.recordFlagged c skipped memErr).jobs = s.jobs ∧
    (∀ q, ((s.recordFlagged c skipped memErr).port q).cycle = (s.port q).cycle) ∧
    (∀ q, ((s.recordFlagged c skipped memErr).port q).pair = (s.port q).pair) := by
  unfold State.recordFlagged
  simp only
  split <;> split <;> simp

theorem State.recordAnswered_fields :
    (∀ d, (s.recordAnswered c skipped memErr).ctx d = s.ctx d) ∧
    (s.recordAnswered c skipped memErr).bridge = s.bridge ∧ (s.recordAnswered c skipped memErr).jobs = s.jobs ∧
    (∀ q, ((s.recordAnswered c skipped memErr).port q).cycle =
      if (s.ctx c).held = some q then none else (s.port q).cycle) ∧
    (∀ q, ((s.recordAnswered c skipped memErr).port q).pair = (s.port q).pair) := by
  simp [State.recordAnswered, State.answerIfHeld_fields, State.recordFlagged_fields]

theorem State.recordFinish_eq :
    s.recordFinish c skipped memErr =
      ((s.recordAnswered c skipped memErr).setCtx c (s.ctx c).afterRecord).drainTest := by
  have hctx : (s.recordFlagged c skipped memErr).ctx c = s.ctx c := (s.recordFlagged_fields c skipped memErr).1 c
  have hanswered := (s.recordAnswered_fields c skipped memErr).1 c
  have hfinish : s.recordFinish c skipped memErr =
      (let t := s.recordFlagged c skipped memErr
      match (t.ctx c).held with
        | some p => (t.answerHeld p (abortResult .aborted (t.ctx c).lastCode (t.ctx c).depth)).idle c
        | none => if (t.ctx c).release then t.idle c else t.setCtx c { t.ctx c with state := .doomed }).drainTest := rfl
  rw [hfinish]
  unfold State.recordAnswered Context.afterRecord at *
  simp only [State.idle, hctx]
  congr 1
  cases hheld : (s.ctx c).held with
  | some p =>
    simp only [hheld, State.answerIfHeld, Option.elim_some] at hanswered ⊢
    rw [hanswered]
    rfl
  | none =>
    cases (s.ctx c).release <;> rfl

@[simp] theorem State.ctx_recordFinish (d : CtxId) :
    (s.recordFinish c skipped memErr).ctx d = if d = c then (s.ctx c).afterRecord else s.ctx d := by
  simp [State.recordFinish_eq, State.drainTest_eq, State.recordAnswered_fields]

@[simp] theorem State.cycle_recordFinish (q : PortId) :
    ((s.recordFinish c skipped memErr).port q).cycle =
      if (s.ctx c).held = some q then none else (s.port q).cycle := by
  simp [State.recordFinish_eq, State.drainTest_eq, State.recordAnswered_fields]

@[simp] theorem State.pair_recordFinish (q : PortId) :
    ((s.recordFinish c skipped memErr).port q).pair = (s.port q).pair := by
  simp [State.recordFinish_eq, State.drainTest_eq, State.recordAnswered_fields]

end

end Sys2Proof.Machine
end

section
/-! What a step can do, said once: the effects a claim is made of, each with the conditions under which the model
brings it about. -/

namespace Sys2Proof.Machine

/-- The cycle is handled by the port alone: beats of a write still arriving, or known responses still to be given. -/
def Cycle.atPort (y : Cycle) : Bool :=
  match y.phase with
  | .arriving _ | .answering _ => true
  | .reading _ _ | .writing _ | .held => false

/-- An effect at the ports, on the bus and among the model's settings, which no group, job or token feels. -/
inductive State.PortEffect : State → State → Prop where
  | port (s : State) (p : PortId) (q : PortState) (hcycle : q.cycle = (s.port p).cycle)
      (hpair : q.pair = (s.port p).pair) : PortEffect s (s.setPort p q)
  | cycle (s : State) (p : PortId) (y : Option Cycle) (hold : (s.port p).cycle.all Cycle.atPort)
      (hnew : y.all Cycle.atPort) : PortEffect s (s.setCycle p y)
  | pairEnds (s : State) (p : PortId) : PortEffect s (s.setPair p none)
  | pairOpens (s : State) (p : PortId) (l : Line) (halone : ∀ q, q ≠ p → (s.port q).pair ≠ some l) :
      PortEffect s (s.setPair p (some l))
  | send (s : State) (p : PortId) (y : Cycle) (r : Request) (hcycle : (s.port p).cycle = none) (hy : y.atMemory) :
      PortEffect s ((s.setCycle p (some y)).setReq p (some r))
  | grant (s : State) (p : PortId) (r : Request) (hbus : s.bus = none) (hreq : s.reqs.get p = some r) :
      PortEffect s (((s.setReq p none).setPointer (.port p)).setBus (some (busOf (.port p) r.burst r.closing)))
  | grantEngine (s : State) (b : Burst) (hbus : s.bus = none) :
      PortEffect s (s.setBus (some (busOf .engine b false)))
  | beat (s : State) (b : BusBurst) (n : Nat) (bad : Bool) (hbus : s.bus = some b) :
      PortEffect s (s.setBus (some { b with answered := n, bad := bad }))
  | busFree (s : State) : PortEffect s (s.setBus none)
  | burstEnds (s : State) (p : PortId) (b : BusBurst) (hbus : s.bus = some b) (howner : b.owner = .port p)
      (horphan : b.orphan = false) : PortEffect s ((s.setBus none).setCycle p none)
  | setting (s : State) (inFlight : List (PortId × Line)) (pointer : Requester) (tickSource : BitVec 3)
      (divisor : Nat) (tickLevel : Bool) (lifetimes : Four Lifetime) (regions : Vector (Option Region) 8)
      (masks : BitVec 8) (qreq rst : Bool) (freeCount : Nat) (pending : List Instr) :
      PortEffect s { s with
        inFlight := inFlight, pointer := pointer, tickSource := tickSource, divisor := divisor
        tickLevel := tickLevel, lifetimes := lifetimes, regions := regions, masks := masks, qreq := qreq
        rst := rst, freeCount := freeCount, pending := pending }

/-- Every context is IDLE, as a SETCFG needs it (R174). -/
def State.allIdle (s : State) : Prop := ∀ c, (s.ctx c).state = .idle

/-- A held CLOSE that port `p` carries is discarded from its context on hold (R25, R26). -/
def State.discardClose (s : State) (c : CtxId) (p : PortId) : State :=
  if s.onHold c then s.setCtx c ((s.ctx c).discardHeld p) else s

/-- Port reset as it reaches the port, and the CLOSE that it discards (R25, R26, R157). -/
def State.portGone (s : State) (p : PortId) : State := (s.resetPort p).discardClose (s.serving p) p

/-- One effect of a claim. -/
inductive State.Effect : State → State → Prop where
  | port {s t : State} (h : State.PortEffect s t) : Effect s t
  -- groups
  | abort (s : State) (c : CtxId) (code : AbortCode) (cause : Option Addr) (party : Option Party)
      (hopen : (s.ctx c).state = .opened) : Effect s (s.takeAbort c code cause party)
  | count (s : State) (c : CtxId) (life cycles : Nat) (hlife : life ≤ Config.countLimit)
      (hcycles : cycles ≤ Config.countLimit ∨ cycles = (s.ctx c).cycles) :
      Effect s (s.setCtx c { s.ctx c with lifetime := life, cycles := cycles })
  | countCycle (s : State) (c : CtxId) (cycles : Nat) (hcycles : cycles ≤ Config.countLimit) :
      Effect s (s.setCtx c { s.ctx c with cycles := cycles })
  | start (s : State) (c : CtxId) (arg : Arg) (rec : Option Addr) (hidle : (s.ctx c).state = .idle)
      (hrun : s.bridge = .running) (hlegal : openArgLegal arg) :
      Effect s (((s.setCtx c ((s.ctx c).started arg rec)).setAges (s.ages ++ [c])).openNotice c
        ((s.ctx c).started arg rec).bounded)
  | enter (s : State) (c : CtxId) (arg : Arg) (hopen : (s.ctx c).state = .opened)
      (hbounded : (s.ctx c).bounded = false) (hdepth : (s.ctx c).depth ≠ Config.depthLimit)
      (hlegal : openArgLegal arg) :
      Effect s (s.setCtx c ((s.ctx c).withLevels (levelOf arg true :: (s.ctx c).levels)))
  | leave (s : State) (c : CtxId) (hopen : (s.ctx c).state = .opened) (hdepth : 1 < (s.ctx c).depth) :
      Effect s (s.setCtx c ((s.ctx c).withLevels (s.ctx c).levels.tail))
  | close (s : State) (c : CtxId) (hopen : (s.ctx c).state = .opened) (hempty : s.order c = []) :
      Effect s ((s.leaveOpen c).idle c)
  | commit (s : State) (c : CtxId) (p : PortId) (hopen : (s.ctx c).state = .opened) (hslots : s.order c ≠ [])
      (hdepth : (s.ctx c).depth ≤ 1) (hserving : s.serving p = c) (hcycle : (s.port p).cycle = none) :
      Effect s (s.commitStart c p)
  | hold (s : State) (c : CtxId) (p : PortId) (haborting : (s.ctx c).state = .aborting)
      (hheld : (s.ctx c).held = none) (hserving : s.serving p = c) (hcycle : (s.port p).cycle = none) :
      Effect s (s.holdClose c p)
  | clear (s : State) (c : CtxId) (hdoomed : (s.ctx c).state = .doomed) : Effect s (s.idle c)
  | release (s : State) (c : CtxId) (hstate : (s.ctx c).state = .opened ∨ (s.ctx c).state = .aborting) :
      Effect s (s.setCtx c { s.ctx c with release := true })
  -- read sets and slots
  | join (s : State) (c : CtxId) (l : Line) (hopen : (s.ctx c).state = .opened) (hnew : l ∉ s.reads c)
      (hroom : (s.reads c).length < Config.readSetLimit)
      (halone : l ∈ s.writes c ∨ ∀ d, d ≠ c → (s.ctx d).state = .opened → l ∉ s.writes d) :
      Effect s (s.setReads c (s.reads c ++ [l]))
  | stage (s : State) (c : CtxId) (i : SlotId) (l : Line) (bytes : Vector (Option StoredByte) 32)
      (hopen : (s.ctx c).state = .opened) (hfree : s.slots[i] = none) (hroom : (s.order c).length < s.caps.get c)
      (hbytes : bytes.toList.any Option.isSome) (hown : l ∉ s.writes c)
      (halone : ∀ d, d ≠ c → (s.ctx d).state = .opened → l ∉ s.reads d ∧ l ∉ s.writes d)
      (hunlocked : ∀ d, (s.ctx d).state = .committing → l ∉ s.writes d) :
      Effect s ((s.setSlot i (some ⟨false, c, l, bytes⟩)).setOrder c (s.order c ++ [i]))
  | store (s : State) (i : SlotId) (b : SlotBody) (bytes : Vector (Option StoredByte) 32) (hslot : s.slots[i] = some b)
      (hbytes : b.bytes.toList.any Option.isSome → bytes.toList.any Option.isSome) :
      Effect s (s.setSlot i (some { b with bytes := bytes }))
  -- jobs
  | jobMoves (s : State) (j k : Job) (rest : List Job) (hjobs : s.jobs = j :: rest) (hctx : k.ctx = j.ctx)
      (hkind : k.isCommit = j.isCommit) : Effect s (s.setJobs (k :: rest))
  | commitDone (s : State) (j : Job) (rest : List Job) (failed : Nat) (hjobs : s.jobs = j :: rest)
      (hkind : j.isCommit) : Effect s ((s.setJobs rest).commitFinish j.ctx failed)
  | recordDone (s : State) (j : Job) (rest : List Job) (skipped bad : Bool) (hjobs : s.jobs = j :: rest)
      (hkind : j.isCommit = false) : Effect s ((s.setJobs rest).recordFinish j.ctx skipped bad)
  -- contention
  | windowTick (s : State) : Effect s s.windowTick
  | windowExpires (s : State) : Effect s s.windowExpires
  | leaveEscalation (s : State) (c : CtxId) : Effect s (s.leaveEscalation c)
  -- configuration
  | escalation (s : State) (t : BitVec 4) (w : BitVec 8) (hidle : s.allIdle) : Effect s (s.setEscalation t w)
  | pairing (s : State) (a b : Bool) (hidle : s.allIdle) : Effect s { s with joinA := a, joinB := b }
  | caps (s : State) (v : Four Nat) (hidle : s.allIdle) : Effect s { s with caps := v }
  -- quiesce and resets
  | drain (s : State) (hrun : s.bridge = .running) : Effect s s.enterDraining
  | running (s : State) : Effect s (s.setBridge .running)
  | portGone (s : State) (p : PortId) : Effect s (s.portGone p)
  | partReset (s : State) (straps : Straps) : Effect s { State.afterPartReset straps with
      ports := s.portsAtReset, qreq := s.qreq, rst := true, freeCount := s.freeCount, pending := s.pending }

/-- Some effects, one after another. -/
def State.Effects : State → State → Prop := Relation.ReflTransGen State.Effect

/-- What every effect keeps, some effects keep. -/
theorem State.Effects.keeps {P : State → Prop} (h : ∀ s t, State.Effect s t → P s → P t) {s t : State}
    (hst : State.Effects s t) (hs : P s) : P t := by
  induction hst with
  | refl => exact hs
  | tail _ he ih => exact h _ _ he ih

theorem State.Effects.refl (s : State) : State.Effects s s := Relation.ReflTransGen.refl

theorem State.Effects.trans {s t u : State} (h : State.Effects s t) (k : State.Effects t u) : State.Effects s u :=
  Relation.ReflTransGen.trans h k

theorem State.Effects.of {s t : State} (h : State.Effect s t) : State.Effects s t := Relation.ReflTransGen.single h

theorem State.Effects.ofPort {s t : State} (h : State.PortEffect s t) : State.Effects s t := .of (.port h)

/-! ### At the ports -/

theorem State.respond_effects (s : State) (p : PortId) (as : List Answer) : State.Effects s (s.respond p as) :=
  .ofPort (.port s p _ rfl rfl)

theorem State.setFlag_effects (s : State) (p : PortId) (f : Flag) : State.Effects s (s.setFlag p f) :=
  .ofPort (.port s p _ rfl rfl)

theorem State.clearFlags_effects (s : State) (p : PortId) (m : BitVec 8) : State.Effects s (s.clearFlags p m) :=
  .ofPort (.port s p _ rfl rfl)

theorem State.beginCycle_effects (s : State) (p : PortId) : State.Effects s (s.beginCycle p) :=
  .ofPort (.port s p _ rfl rfl)

theorem State.setInFlight_effects (s : State) (l : List (PortId × Line)) : State.Effects s (s.setInFlight l) :=
  .ofPort (.setting s l _ _ _ _ _ _ _ _ _ _ _)

/-! ### Aborts -/

theorem State.abort_effects (s : State) (c : CtxId) (code : AbortCode) (cause : Option Addr)
    (party : Option Party) : State.Effects s (s.abort c code cause party) := by
  unfold State.abort
  split
  · exact .of (.abort s c code cause party ‹_›)
  · exact .refl s

theorem State.abortAll_effects (s : State) (cs : List CtxId) (code : AbortCode) (cause : Option Addr)
    (party : Option Party) : State.Effects s (s.abortAll cs code cause party) :=
  State.abortAll_invariant (State.Effects s) cs code cause party
    (fun t c _ h => h.trans (t.abort_effects c code cause party))
    (fun t n h => h.trans (.ofPort (.setting t _ _ _ _ _ _ _ _ _ _ n _))) s (.refl s)

theorem State.invade_effects (s : State) (l : Line) (a : Addr) (q : Party) : State.Effects s (s.invade l a q) :=
  s.abortAll_effects _ _ _ _

theorem State.cycle_abort (s : State) (c : CtxId) (code : AbortCode) (cause : Option Addr) (party : Option Party)
    (p : PortId) : ((s.abort c code cause party).port p).cycle = (s.port p).cycle := by
  rw [State.port_abort]

theorem State.cycle_abortAll (s : State) (cs : List CtxId) (code : AbortCode) (cause : Option Addr)
    (party : Option Party) (p : PortId) : ((s.abortAll cs code cause party).port p).cycle = (s.port p).cycle := by
  rw [State.port_abortAll]

/-! ### What follows a claim -/

/-- Everything that `settle` does is made of effects (R73, R79, R101, R165). -/
theorem State.settleKeeps_effects (s : State) : State.SettleKeeps (State.Effects s) where
  start t j k rest _ h hj hc hk _ := h.trans (.of (.jobMoves t j k rest hj hc hk))
  commitDone t j rest n h hj hk := h.trans (.of (.commitDone t j rest n hj hk))
  recordDone t j rest h hj hk := h.trans (.of (.recordDone t j rest true false hj hk))
  moved t h := h.trans (.ofPort (.setting t _ .engine _ _ _ _ _ _ _ _ _ _))
  grantPort t p r h hb hr := h.trans (.ofPort (.grant t p r hb hr))
  grantCommit t c n f k b rest h hb hj :=
    (h.trans (.of (.jobMoves t _ ⟨c, .commit n f k, .writing⟩ rest hj rfl rfl))).trans
      (.ofPort (.grantEngine _ b hb))
  grantRecord t c a i b rest h hb hj _ :=
    ((h.trans (.of (.jobMoves t _ ⟨c, .record a i, .writing⟩ rest hj rfl rfl))).trans
      (.ofPort (.grantEngine _ b hb))).trans (State.invade_effects _ _ _ _)

theorem State.settle_effects (s : State) : State.Effects s s.settle :=
  State.settle_keeps s.settleKeeps_effects (.refl s)

theorem State.arbitrate_effects (s : State) : State.Effects s s.arbitrate :=
  State.grants_keeps s.settleKeeps_effects _ (.refl s)

/-- What follows a claim begins no cycle. -/
theorem State.settleKeeps_cycle_none (p : PortId) : State.SettleKeeps fun s => (s.port p).cycle = none where
  start _ _ _ _ _ h _ _ _ _ := by simpa using h
  commitDone _ _ _ _ h _ _ := by
    rw [State.cycle_commitFinish]
    split <;> simp [h]
  recordDone _ _ _ h _ _ := by
    rw [State.cycle_recordFinish]
    split <;> simp [h]
  moved _ h := by simpa using h
  grantPort _ _ _ h _ _ := by simpa using h
  grantCommit _ _ _ _ _ _ _ h _ _ := by simpa using h
  grantRecord _ _ _ _ _ _ h _ _ _ := by
    rw [State.invade, State.cycle_abortAll]
    simpa using h

theorem State.breakPair_effects (s : State) (p : PortId) : State.Effects s (s.breakPair p) :=
  State.breakPair_keeps s.settleKeeps_effects (.refl s) fun _ =>
    (State.Effects.ofPort (.pairEnds s p)).trans (State.setFlag_effects _ _ _)

theorem State.cycle_none_breakPair {s : State} {p : PortId} (h : (s.port p).cycle = none) :
    ((s.breakPair p).port p).cycle = none :=
  State.breakPair_keeps (State.settleKeeps_cycle_none p) h fun _ => by simpa using h

/-- A cycle is made of effects when its own part is, at a port that has none in progress. -/
theorem State.cycle_effects (s : State) (p : PortId) {f : State → State}
    (hf : ∀ t : State, (t.port p).cycle = none → State.Effects t (f t)) : State.Effects s (s.cycle p f) :=
  State.cycle_keeps s.settleKeeps_effects (.refl s) fun htakes => by
    simp only [State.takesCycle, Bool.and_eq_true, Option.isNone_iff_eq_none] at htakes
    exact (s.beginCycle_effects p).trans (hf _ (by simpa using htakes.2))

/-- Arriving beats are made of effects when the cycle they complete is. -/
theorem State.arrive_effects (s : State) (p : PortId) (r : RawCycle) {take : RawCycle → State → State}
    (hf : ∀ (q : RawCycle) (t : State), (t.port p).cycle = none → State.Effects t (take q t)) :
    State.Effects s (s.arrive p r take) := by
  refine State.arrive_keeps s.settleKeeps_effects (.refl s) fun q t ht => ?_
  have hport : State.Effects s t ∧ (t.port p).cycle.all Cycle.atPort := by
    rcases ht with ⟨⟨y, got, hy, hgot⟩, rfl⟩ | ⟨htakes, rfl⟩
    · exact ⟨.refl t, by simp [hy, Cycle.atPort, hgot]⟩
    · simp only [State.takesCycle, Bool.and_eq_true, Option.isNone_iff_eq_none] at htakes
      exact ⟨s.beginCycle_effects p, by simp [htakes.2]⟩
  obtain ⟨hst, hold⟩ := hport
  exact ⟨hst.trans (.ofPort (.cycle t p _ hold rfl)),
    (hst.trans (.ofPort (.cycle t p none hold rfl))).trans (hf _ _ (by simp))⟩

end Sys2Proof.Machine
end

section
/-! The cycles and the marks, each made of effects. -/

namespace Sys2Proof.Machine

/-! ### Reads and writes at memory -/

section
variable {s : State} {p : PortId} (hcycle : (s.port p).cycle = none)
include hcycle

theorem State.sendRead_effects (k : BitVec 3) (a : Addr) (rs : List ReadBeat) (g : Option CtxId) :
    State.Effects s (s.sendRead p k a rs g) :=
  .ofPort (.send s p ⟨k, a, _, .reading rs _⟩ _ hcycle rfl)

theorem State.sendWrite_effects (k : BitVec 3) (a : Addr) (bs : List WriteBeat) :
    State.Effects s (s.sendWrite p k a bs) :=
  (State.Effects.ofPort (.send s p ⟨k, a, _, .writing bs⟩ _ hcycle rfl)).trans (State.setInFlight_effects _ _)

theorem State.sendClosing_effects (a : Addr) (b : WriteBeat) : State.Effects s (s.sendClosing p a b) :=
  .ofPort (.send s p ⟨4, a, 0, .writing [b]⟩ _ hcycle rfl)

end

/-- A read answered by its port is made of effects while its cycle is the port's own. -/
theorem State.giveBeats_effects {s : State} {p : PortId} (hold : (s.port p).cycle.all Cycle.atPort) (k : BitVec 3)
    (a : Addr) (n : BitVec 2) (as : List Answer) : State.Effects s (s.giveBeats p k a n as) := by
  cases as with
  | nil => exact .ofPort (.cycle s p none hold rfl)
  | cons x rest =>
    refine (s.respond_effects p [x]).trans (.ofPort (.cycle _ p _ (by simpa using hold) ?_))
    split <;> simp [Cycle.atPort]

theorem State.answerBeats_effects {s : State} {p : PortId} (hcycle : (s.port p).cycle = none) (k : BitVec 3)
    (a : Addr) (as : List Answer) : State.Effects s (s.answerBeats p k a as) :=
  State.giveBeats_effects (by simp [hcycle]) _ _ _ _

/-! ### Counting -/

theorem State.counted_eq (s : State) (p : PortId) :
    s.counted p = s ∨ ∃ life cycles, life ≤ Config.countLimit ∧ cycles ≤ Config.countLimit ∧
      ((s.ctx (s.serving p)).state = .opened) ∧
      (s.counted p = s.setCtx (s.serving p) { s.ctx (s.serving p) with lifetime := life, cycles := cycles } ∨
        s.counted p = s.setCtx (s.serving p) { s.ctx (s.serving p) with cycles := cycles }) := by
  unfold State.counted State.countCycle
  simp only
  split
  · next hopen =>
    split
    · exact .inr ⟨_, _, Nat.min_le_left _ _, Nat.min_le_left _ _, hopen, .inl rfl⟩
    · exact .inr ⟨0, _, Nat.zero_le _, Nat.min_le_left _ _, hopen, .inr rfl⟩
  · exact .inl rfl

theorem State.counted_effects (s : State) (p : PortId) : State.Effects s (s.counted p) := by
  obtain h | ⟨life, cycles, hlife, hcycles, -, h | h⟩ := s.counted_eq p
  · rw [h]
    exact .refl s
  · rw [h]
    exact .of (.count s _ life cycles hlife (.inl hcycles))
  · rw [h]
    exact .of (.countCycle s _ cycles hcycles)

@[simp] theorem State.port_counted (s : State) (p q : PortId) : (s.counted p).port q = s.port q := by
  obtain h | ⟨_, _, _, _, _, h | h⟩ := s.counted_eq p <;> rw [h] <;> rfl

@[simp] theorem State.serving_counted (s : State) (p q : PortId) : (s.counted p).serving q = s.serving q := by
  obtain h | ⟨_, _, _, _, _, h | h⟩ := s.counted_eq p <;> rw [h] <;> rfl

@[simp] theorem State.state_counted (s : State) (p : PortId) (d : CtxId) :
    ((s.counted p).ctx d).state = (s.ctx d).state := by
  obtain h | ⟨_, _, _, _, _, h | h⟩ := s.counted_eq p <;> rw [h]
  all_goals
    rw [State.ctx_setCtx]
    split
    · next hd => rw [hd]
    · rfl

theorem State.expire_effects (s : State) (c : CtxId) (e : Bool) : State.Effects s (s.expire c e) := by
  cases e with
  | false => exact .refl s
  | true => exact s.abort_effects c .timeout none none

/-! ### The parts of a cycle, after its counting -/

theorem State.takeRead_eq (s : State) (p : PortId) (addr : Addr) (ens : List Lanes) :
    s.takeRead p addr ens =
      (if (s.ctx (s.serving p)).state = .opened then (s.counted p).groupRead (s.serving p) p addr ens
        else (s.counted p).ungroupedRead p addr ens).expire (s.serving p) (s.countExpires p) := rfl

theorem State.takeWrite_eq (s : State) (p : PortId) (addr : Addr) (beats : List WriteBeat) :
    s.takeWrite p addr beats =
      (if writeGood beats then (s.counted p).performWrite p addr beats
        else (s.counted p).refuseParity p addr).expire (s.serving p) (s.countExpires p) := rfl

theorem State.takeLockRead_eq (s : State) (p : PortId) (addr : Addr) (en : Lanes) :
    s.takeLockRead p addr en =
      (((s.counted p).abort (s.serving p) .locked (some addr)).lockedRead p addr en).expire (s.serving p)
        (s.countExpires p) := rfl

theorem State.takeEndingWrite_eq (s : State) (p : PortId) (addr : Addr) (beat : WriteBeat) :
    s.takeEndingWrite p addr beat =
      (if writeGood [beat] then (s.counted p).endingWrite p addr beat
        else ((s.counted p).setPair p none).refuseParity p addr).expire (s.serving p) (s.countExpires p) := rfl

theorem State.takeStrayWrite_eq (s : State) (p : PortId) (addr : Addr) (beat : WriteBeat) :
    s.takeStrayWrite p addr beat =
      (if writeGood [beat] then (s.counted p).ungroupedWrite p 4 addr [beat]
        else (s.counted p).refuseParity p addr).expire (s.serving p) (s.countExpires p) := rfl

/-! ### Read sets -/

/-- A line joins the read set of an OPEN group when it is in no other OPEN group's write set (R29, R41). -/
theorem State.joinReads_effects {s : State} {c : CtxId} {l : Line} (hopen : (s.ctx c).state = .opened)
    (hroom : l ∉ s.reads c → (s.reads c).length < Config.readSetLimit)
    (halone : l ∈ s.writes c ∨ ∀ d, d ≠ c → (s.ctx d).state = .opened → l ∉ s.writes d) :
    State.Effects s (s.joinReads c l) := by
  unfold State.joinReads
  split
  · exact .refl s
  · next hnew =>
    have hnew' : l ∉ s.reads c := by simpa using hnew
    exact .of (.join s c l hopen hnew' (hroom hnew') halone)

theorem State.mem_readRivals (s : State) (c d : CtxId) (l : Line) :
    d ∈ s.readRivals c l ↔ d ≠ c ∧ (s.ctx d).state = .opened ∧ l ∈ s.writes d := by
  simp [State.readRivals, and_assoc]

theorem State.mem_writeRivals (s : State) (c d : CtxId) (l : Line) :
    d ∈ s.writeRivals c l ↔ d ≠ c ∧ (s.ctx d).state = .opened ∧ (l ∈ s.reads d ∨ l ∈ s.writes d) := by
  simp [State.writeRivals, State.mem_holders, and_comm]

/-- A contest won by a context that is not among its rivals: it stands as it was, and no rival is OPEN (R38). -/
theorem State.contestWon_spec (s : State) {c : CtxId} {rivals : List CtxId} (h : c ∉ rivals) (addr : Addr) :
    State.Effects s (s.contestWon c rivals addr) ∧ State.Shrinks s (s.contestWon c rivals addr) ∧
    (s.contestWon c rivals addr).ctx c = s.ctx c ∧ (s.contestWon c rivals addr).reads c = s.reads c ∧
    (∀ d ∈ rivals, ((s.contestWon c rivals addr).ctx d).state ≠ .opened) :=
  ⟨s.abortAll_effects .., s.abortAll_shrinks .., s.ctx_abortAll_of_not_mem c _ _ _ h,
    s.reads_abortAll_of_not_mem c _ _ _ h, s.abortAll_closes _ _ _ _⟩

/-- A read of a line new to an OPEN group: after the contest no other OPEN group has staged it (R41). -/
theorem State.newLineRead_effects {s : State} {c : CtxId} (hopen : (s.ctx c).state = .opened) (addr : Addr) :
    State.Effects s (s.newLineRead c addr) := by
  unfold State.newLineRead
  simp only
  split_ifs with hfull hcap hnone hwon
  · exact s.abort_effects ..
  · exact s.abort_effects ..
  · refine State.joinReads_effects hopen (fun _ => not_le.mp hcap) (.inr fun d hd hdo hl => ?_)
    have := (s.mem_readRivals c d _).mpr ⟨hd, hdo, hl⟩
    simp_all
  · obtain ⟨heffects, hshrinks, hself, hreads, hclosed⟩ :=
      s.contestWon_spec (fun h => ((s.mem_readRivals c c (lineOf addr)).mp h).1 rfl) addr
    refine heffects.trans (State.joinReads_effects (by rw [hself]; exact hopen) (fun _ => ?_)
      (.inr fun d hd hdo hl => ?_))
    · rw [hreads]
      exact not_le.mp hcap
    · exact hclosed d ((s.mem_readRivals c d _).mpr ⟨hd, hshrinks.opened d hdo, hshrinks.writes d hl⟩) hdo
  · exact s.abort_effects ..

/-! ### Slots -/

theorem any_isSome_iff (v : Vector (Option StoredByte) 32) :
    v.toList.any Option.isSome ↔ ∃ (k : Nat) (h : k < 32), v[k].isSome := by
  simp only [List.any_eq_true, Vector.mem_toList_iff, Vector.mem_iff_getElem]
  constructor
  · rintro ⟨x, ⟨k, hk, rfl⟩, hx⟩
    exact ⟨k, hk, hx⟩
  · rintro ⟨k, hk, hx⟩
    exact ⟨_, ⟨k, hk, rfl⟩, hx⟩

theorem getElem_mergeBytes (addr : Addr) (beats : List WriteBeat) (v : Vector (Option StoredByte) 32) {k : Nat}
    (hk : k < 32) : (mergeBytes addr beats v)[k] = (writtenAt addr beats k).or v[k] := by
  simp [mergeBytes]

/-- Merging loses no written byte (R57). -/
theorem any_mergeBytes (addr : Addr) (beats : List WriteBeat) (v : Vector (Option StoredByte) 32)
    (h : v.toList.any Option.isSome) : (mergeBytes addr beats v).toList.any Option.isSome := by
  obtain ⟨k, hk, hsome⟩ := (any_isSome_iff v).mp h
  exact (any_isSome_iff _).mpr ⟨k, hk, by simp [getElem_mergeBytes, hsome]⟩

/-- A legal burst does not reach past the end of its line (R35, R145). -/
theorem legalBurst_in_line {a : Addr} {n : Nat} (h : legalBurst a n) : a.toNat % 32 + 4 * n ≤ 32 := by
  obtain ⟨hn, ha⟩ := (legalBurst_iff a n).mp h
  simp only [List.mem_cons, List.not_mem_nil, or_false] at hn
  rcases hn with rfl | rfl | rfl | rfl <;> omega

/-- The byte of a lane that a beat of a write enables is written at the beat's offset in the line (R57). -/
theorem writtenAt_of_enabled {addr : Addr} {beats : List WriteBeat} {i n : Nat} {b : WriteBeat}
    (hb : beats[i]? = some b) (hn : n < 4) (hen : b.en.getLsbD n) :
    writtenAt addr beats (addr.toNat % 32 + (4 * i + n)) = some ⟨laneByte b.data n, b.par.getLsbD n⟩ := by
  have hi : (4 * i + n) / 4 = i := by omega
  have hm : (4 * i + n) % 4 = n := by omega
  simp [writtenAt, hi, hm, hb, hen]

theorem exists_enabled_lane {en : Lanes} (h : en ≠ 0) : ∃ n < 4, en.getLsbD n := by
  by_contra hno
  push Not at hno
  exact h (BitVec.eq_of_getLsbD_eq fun i hi => by simpa using hno i hi)

/-- A legal write that enables a byte writes one into its line (R57, R58). -/
theorem any_mergeBytes_of_enabled {addr : Addr} {beats : List WriteBeat} (hlegal : legalBurst addr beats.length)
    (hsome : enablesNone beats = false) (v : Vector (Option StoredByte) 32) :
    (mergeBytes addr beats v).toList.any Option.isSome := by
  simp only [enablesNone, List.all_eq_false, beq_iff_eq] at hsome
  obtain ⟨b, hb, hen⟩ := hsome
  obtain ⟨i, hi, rfl⟩ := List.getElem_of_mem hb
  obtain ⟨n, hn, hlane⟩ := exists_enabled_lane hen
  have hline := legalBurst_in_line hlegal
  refine (any_isSome_iff _).mpr ⟨addr.toNat % 32 + (4 * i + n), by omega, ?_⟩
  rw [getElem_mergeBytes, writtenAt_of_enabled (List.getElem?_eq_getElem hi) hn hlane]
  rfl

theorem State.slotOf_isSome_iff (s : State) (c : CtxId) (l : Line) : (s.slotOf c l).isSome ↔ l ∈ s.writes c := by
  simp [State.slotOf, State.writes]

theorem State.slots_of_slotOf {s : State} {c : CtxId} {l : Line} {i : SlotId} (h : s.slotOf c l = some i) :
    ∃ b, s.slots[i] = some b ∧ b.line = l ∧ i ∈ s.order c := by
  have hline : s.slotLine i = some l := by simpa using List.find?_some h
  obtain ⟨b, hb, hl⟩ := Option.map_eq_some_iff.mp hline
  exact ⟨b, hb, hl, List.mem_of_find?_eq_some h⟩

theorem State.freeSlot_some {s : State} {i : SlotId} (h : s.freeSlot = some i) : s.slots[i] = none := by
  simpa using List.find?_some h

theorem State.storeBytes_of_some {s : State} {i : SlotId} {b : SlotBody} (h : s.slots[i] = some b) (addr : Addr)
    (beats : List WriteBeat) :
    s.storeBytes i addr beats = s.setSlot i (some { b with bytes := mergeBytes addr beats b.bytes }) := by
  simp only [State.storeBytes, h]

/-- A slot allocated and written at once (R58). -/
theorem State.allocate_storeBytes (s : State) (c : CtxId) (l : Line) (i : SlotId) (addr : Addr)
    (beats : List WriteBeat) :
    (s.allocate c l i).storeBytes i addr beats =
      (s.setSlot i (some ⟨false, c, l, mergeBytes addr beats (Vector.replicate 32 none)⟩)).setOrder c
        (s.order c ++ [i]) := by
  have hslot : (s.allocate c l i).slots[i] = some ⟨false, c, l, Vector.replicate 32 none⟩ := by
    simp [State.allocate, State.setSlot, State.setOrder]
  rw [State.storeBytes_of_some hslot]
  simp [State.allocate, State.setSlot, State.setOrder]

/-- A write of an OPEN group is staged when no other OPEN group holds its line and no commit locks it, or when the
group has staged the line already (R57, R58, R59). -/
theorem State.stage_effects {s : State} {c : CtxId} {addr : Addr} {beats : List WriteBeat}
    (hopen : (s.ctx c).state = .opened) (hlegal : legalBurst addr beats.length)
    (halone : lineOf addr ∈ s.writes c ∨
      ∀ d, d ≠ c → (s.ctx d).state = .opened → lineOf addr ∉ s.reads d ∧ lineOf addr ∉ s.writes d)
    (hunlocked : ∀ d, (s.ctx d).state = .committing → lineOf addr ∉ s.writes d) :
    State.Effects s (s.stage c addr beats) := by
  unfold State.stage
  split
  · exact .refl s
  · next hnone =>
    split
    · next i hi =>
      obtain ⟨b, hb, -, -⟩ := State.slots_of_slotOf hi
      rw [State.storeBytes_of_some hb]
      exact .of (.store s i b _ hb (any_mergeBytes addr beats b.bytes))
    · next hi =>
      have hown : lineOf addr ∉ s.writes c := fun h => by
        have := (s.slotOf_isSome_iff c _).mpr h
        simp [hi] at this
      split_ifs with hroom
      · split
        · next i hfree =>
          rw [State.allocate_storeBytes]
          exact .of (.stage s c i _ _ hopen (State.freeSlot_some hfree) hroom
            (any_mergeBytes_of_enabled hlegal (by simpa using hnone) _) hown (halone.resolve_left hown) hunlocked)
        · exact s.abort_effects ..
      · exact s.abort_effects ..

/-! ### Group cycles -/

theorem State.trackedWrite_effects {s : State} {c : CtxId} {addr : Addr} {beats : List WriteBeat}
    (hopen : (s.ctx c).state = .opened) (hlegal : legalBurst addr beats.length)
    (hunlocked : s.commitLocked (lineOf addr) = false) : State.Effects s (s.trackedWrite c addr beats) := by
  have hfree : ∀ d, (s.ctx d).state = .committing → lineOf addr ∉ s.writes d := fun d hd hl => by
    simp [(s.commitLocked_iff (lineOf addr)).mpr ⟨d, hd, hl⟩] at hunlocked
  unfold State.trackedWrite
  simp only
  split_ifs with hown hfull hnone hwon
  · exact State.stage_effects hopen hlegal (.inl (by simpa using hown)) hfree
  · exact s.abort_effects ..
  · refine State.stage_effects hopen hlegal (.inr fun d hd hdo => ?_) hfree
    have := (s.mem_writeRivals c d (lineOf addr)).not.mp (by simp_all)
    simp_all
  · obtain ⟨heffects, hshrinks, hself, -, hclosed⟩ :=
      s.contestWon_spec (fun h => ((s.mem_writeRivals c c (lineOf addr)).mp h).1 rfl) addr
    refine heffects.trans (State.stage_effects (by rw [hself]; exact hopen) hlegal (.inr fun d hd hdo => ?_)
      fun d hd hl => hfree d (hshrinks.committing d hd) (hshrinks.writes d hl))
    refine ⟨fun hl => hclosed d ((s.mem_writeRivals c d _).mpr ?_) hdo, fun hl =>
      hclosed d ((s.mem_writeRivals c d _).mpr ?_) hdo⟩
    · exact ⟨hd, hshrinks.opened d hdo, .inl (hshrinks.reads d hl)⟩
    · exact ⟨hd, hshrinks.opened d hdo, .inr (hshrinks.writes d hl)⟩
  · exact s.abort_effects ..

section
variable {s : State} {c : CtxId} {p : PortId} (hcycle : (s.port p).cycle = none)
include hcycle

theorem State.groupWrite_effects (hopen : (s.ctx c).state = .opened) {addr : Addr} {beats : List WriteBeat}
    (hlegal : legalBurst addr beats.length) : State.Effects s (s.groupWrite c p addr beats) := by
  unfold State.groupWrite
  split
  · exact s.respond_effects p _
  · next hlocked =>
    have hunlocked : s.commitLocked (lineOf addr) = false := by
      simp only [State.lockedFor, Bool.or_eq_true, not_or, Bool.not_eq_true] at hlocked
      exact hlocked.1.1
    split
    · exact (s.abort_effects ..).trans (State.respond_effects _ p _)
    · split_ifs
      · exact State.sendWrite_effects hcycle _ _ _
      · exact (s.abort_effects ..).trans (State.respond_effects _ p _)
    · exact (State.trackedWrite_effects hopen hlegal hunlocked).trans (State.respond_effects _ p _)

theorem State.forward_effects (addr : Addr) (ens : List Lanes) (b : SlotBody) :
    State.Effects s (s.forward c p addr ens b) := by
  unfold State.forward
  simp only
  split_ifs
  · unfold State.forwardFailed
    exact (s.abort_effects ..).trans (State.sendRead_effects (by rw [State.cycle_abort, hcycle]) _ _ _ _)
  · exact State.answerBeats_effects hcycle _ _ _
  · exact State.sendRead_effects hcycle _ _ _ _

theorem State.ownWriteRead_effects (hopen : (s.ctx c).state = .opened) {addr : Addr} (ens : List Lanes) {i : SlotId}
    (hi : s.slotOf c (lineOf addr) = some i) : State.Effects s (s.ownWriteRead c p addr ens i) := by
  unfold State.ownWriteRead
  simp only
  split_ifs with hfull
  · exact (s.abort_effects ..).trans (State.sendRead_effects (by rw [State.cycle_abort, hcycle]) _ _ _ _)
  · split
    · have hroom : lineOf addr ∉ s.reads c → (s.reads c).length < Config.readSetLimit := by
        intro hnew
        simpa [hnew] using hfull
      have hmem : lineOf addr ∈ s.writes c := (s.slotOf_isSome_iff c _).mp (by simp [hi])
      refine (State.joinReads_effects hopen hroom (.inl hmem)).trans (State.forward_effects ?_ _ _ _)
      unfold State.joinReads
      split <;> simpa using hcycle
    · exact State.sendRead_effects hcycle _ _ _ _

theorem State.cycle_newLineRead (addr : Addr) : ((s.newLineRead c addr).port p).cycle = none := by
  have hjoin : ∀ (t : State) (l : Line), ((t.joinReads c l).port p).cycle = (t.port p).cycle := by
    intro t l
    unfold State.joinReads
    split <;> simp
  unfold State.newLineRead State.contestWon State.contestLost
  simp only
  split_ifs <;> simp only [hjoin, State.cycle_abort, State.cycle_abortAll, hcycle]

theorem State.groupRead_effects (hopen : (s.ctx c).state = .opened) (addr : Addr) (ens : List Lanes) :
    State.Effects s (s.groupRead c p addr ens) := by
  unfold State.groupRead
  simp only
  split
  · exact s.respond_effects p _
  · split
    · exact (s.abort_effects ..).trans (State.answerBeats_effects (by rw [State.cycle_abort, hcycle]) _ _ _)
    · exact State.sendRead_effects hcycle _ _ _ _
    · split
      · exact State.ownWriteRead_effects hcycle hopen ens ‹_›
      · split_ifs
        · exact State.sendRead_effects hcycle _ _ _ _
        · exact (State.newLineRead_effects hopen addr).trans
            (State.sendRead_effects (State.cycle_newLineRead hcycle addr) _ _ _ _)

/-! ### Ungrouped and locked cycles -/

theorem State.ungroupedRead_effects (addr : Addr) (ens : List Lanes) :
    State.Effects s (s.ungroupedRead p addr ens) := by
  unfold State.ungroupedRead
  simp only
  split_ifs
  · exact (s.setFlag_effects p _).trans (State.answerBeats_effects (by simp [hcycle]) _ _ _)
  · exact s.respond_effects p _
  · exact State.sendRead_effects hcycle _ _ _ _

/-- An intruding cycle is made of effects when what it does once let through is: no other port holds a pair on its
line then (R46). -/
theorem State.intrude_effects (addr : Addr) (refusal : Answer) {go : State → State}
    (hgo : ∀ t : State, (t.port p).cycle = none → (∀ q, q ≠ p → (t.port q).pair ≠ some (lineOf addr)) →
      State.Effects t (go t)) : State.Effects s (s.intrude p addr refusal go) := by
  unfold State.intrude
  simp only
  split_ifs with hblocked hlocked hheld htracked
  · exact (s.setFlag_effects p _).trans (State.respond_effects _ p _)
  · exact s.respond_effects p _
  · exact s.respond_effects p _
  all_goals
    have halone : ∀ q, q ≠ p → (s.port q).pair ≠ some (lineOf addr) := fun q hq hl =>
      hlocked ((s.lockedFor_iff p _).mpr (.inr (.inl ⟨q, hq, hl⟩)))
  · refine (s.invade_effects ..).trans (hgo _ ?_ fun q hq => ?_)
    · rw [State.invade, State.cycle_abortAll, hcycle]
    · rw [State.invade, State.port_abortAll]
      exact halone q hq
  · exact hgo s hcycle halone

theorem State.ungroupedWrite_effects (k : BitVec 3) (addr : Addr) (beats : List WriteBeat) :
    State.Effects s (s.ungroupedWrite p k addr beats) :=
  State.intrude_effects hcycle addr _ fun _ ht _ => State.sendWrite_effects ht _ _ _

theorem State.lockedRead_effects (addr : Addr) (en : Lanes) : State.Effects s (s.lockedRead p addr en) :=
  State.intrude_effects hcycle addr _ fun t ht halone =>
    (State.Effects.ofPort (.pairOpens t p _ halone)).trans (State.sendRead_effects (by simpa using ht) _ _ _ _)

theorem State.endingWrite_effects (addr : Addr) (beat : WriteBeat) : State.Effects s (s.endingWrite p addr beat) :=
  ((State.Effects.ofPort (.pairEnds s p)).trans (State.invade_effects _ _ _ _)).trans
    (State.sendClosing_effects (by rw [State.invade, State.cycle_abortAll]; simpa using hcycle) _ _)

end

theorem State.refuseParity_effects (s : State) (p : PortId) (addr : Addr) :
    State.Effects s (s.refuseParity p addr) :=
  ((s.setFlag_effects p _).trans (State.abort_effects _ _ _ _ _)).trans (State.respond_effects _ p _)

theorem State.refuseMalformed_effects {s : State} {p : PortId} (hcycle : (s.port p).cycle = none) (k : BitVec 3)
    (addr : Addr) (n : Nat) : State.Effects s (s.refuseMalformed p k addr n) := by
  unfold State.refuseMalformed
  simp only
  split
  · exact (s.setFlag_effects p _).trans (State.answerBeats_effects (by simp [hcycle]) _ _ _)
  · exact (s.setFlag_effects p _).trans (State.respond_effects _ p _)

/-! ### The cycles as the port takes them -/

section
variable {s : State} {p : PortId} (hcycle : (s.port p).cycle = none)
include hcycle

theorem State.takeRead_effects (addr : Addr) (ens : List Lanes) : State.Effects s (s.takeRead p addr ens) := by
  rw [State.takeRead_eq]
  refine State.Effects.trans ?_ (State.expire_effects _ _ _)
  split_ifs with hopen
  · exact (s.counted_effects p).trans (State.groupRead_effects (by simpa using hcycle) (by simpa using hopen) _ _)
  · exact (s.counted_effects p).trans (State.ungroupedRead_effects (by simpa using hcycle) _ _)

theorem State.performWrite_effects {addr : Addr} {beats : List WriteBeat} (hlegal : legalBurst addr beats.length) :
    State.Effects s (s.performWrite p addr beats) := by
  unfold State.performWrite
  simp only
  split
  · next hopen => exact State.groupWrite_effects hcycle hopen hlegal
  · exact State.ungroupedWrite_effects hcycle _ _ _
  · exact State.ungroupedWrite_effects hcycle _ _ _
  · exact s.respond_effects p _
  · exact s.respond_effects p _

theorem State.takeWrite_effects {addr : Addr} {beats : List WriteBeat} (hlegal : legalBurst addr beats.length) :
    State.Effects s (s.takeWrite p addr beats) := by
  rw [State.takeWrite_eq]
  refine State.Effects.trans ?_ (State.expire_effects _ _ _)
  split_ifs
  · exact (s.counted_effects p).trans (State.performWrite_effects (by simpa using hcycle) hlegal)
  · exact (s.counted_effects p).trans (State.refuseParity_effects _ _ _)

theorem State.takeLockRead_effects (addr : Addr) (en : Lanes) : State.Effects s (s.takeLockRead p addr en) := by
  rw [State.takeLockRead_eq]
  exact (((s.counted_effects p).trans (State.abort_effects _ _ _ _ _)).trans
    (State.lockedRead_effects (by rw [State.cycle_abort]; simpa using hcycle) _ _)).trans (State.expire_effects _ _ _)

theorem State.takeEndingWrite_effects (addr : Addr) (beat : WriteBeat) :
    State.Effects s (s.takeEndingWrite p addr beat) := by
  rw [State.takeEndingWrite_eq]
  refine State.Effects.trans ?_ (State.expire_effects _ _ _)
  split_ifs
  · exact (s.counted_effects p).trans (State.endingWrite_effects (by simpa using hcycle) _ _)
  · exact ((s.counted_effects p).trans (.ofPort (.pairEnds _ p))).trans (State.refuseParity_effects _ _ _)

theorem State.takeStrayWrite_effects (addr : Addr) (beat : WriteBeat) :
    State.Effects s (s.takeStrayWrite p addr beat) := by
  rw [State.takeStrayWrite_eq]
  refine State.Effects.trans ?_ (State.expire_effects _ _ _)
  split_ifs
  · exact (s.counted_effects p).trans (State.ungroupedWrite_effects (by simpa using hcycle) _ _ _)
  · exact (s.counted_effects p).trans (State.refuseParity_effects _ _ _)

theorem State.readCycle_effects (addr : Addr) (ens : List Lanes) : State.Effects s (s.readCycle p addr ens) := by
  have hbroken := State.cycle_none_breakPair hcycle
  unfold State.readCycle
  split_ifs
  · exact (s.breakPair_effects p).trans (State.takeRead_effects hbroken _ _)
  · exact (s.breakPair_effects p).trans (State.refuseMalformed_effects hbroken _ _ _)

theorem State.writeCycle_effects (addr : Addr) (beats : List WriteBeat) :
    State.Effects s (s.writeCycle p addr beats) := by
  have hbroken := State.cycle_none_breakPair hcycle
  unfold State.writeCycle
  split_ifs with hlegal
  · exact (s.breakPair_effects p).trans (State.takeWrite_effects hbroken hlegal)
  · exact (s.breakPair_effects p).trans (State.refuseMalformed_effects hbroken _ _ _)

theorem State.lockReadCycle_effects (addr : Addr) (en : Lanes) : State.Effects s (s.lockReadCycle p addr en) := by
  have hbroken := State.cycle_none_breakPair hcycle
  unfold State.lockReadCycle
  split_ifs
  · exact (s.breakPair_effects p).trans (State.takeLockRead_effects hbroken _ _)
  · exact (s.breakPair_effects p).trans (State.refuseMalformed_effects hbroken _ _ _)

theorem State.lockWriteCycle_effects (addr : Addr) (beat : WriteBeat) :
    State.Effects s (s.lockWriteCycle p addr beat) := by
  have hbroken := State.cycle_none_breakPair hcycle
  unfold State.lockWriteCycle
  split_ifs
  · exact State.takeEndingWrite_effects hcycle _ _
  · exact (s.breakPair_effects p).trans (State.takeStrayWrite_effects hbroken _ _)
  · exact (s.breakPair_effects p).trans (State.refuseMalformed_effects hbroken _ _ _)

theorem State.malformedTaken_effects (r : RawCycle) : State.Effects s (s.malformedTaken p r) :=
  (s.breakPair_effects p).trans (State.refuseMalformed_effects (State.cycle_none_breakPair hcycle) _ _ _)

end

end Sys2Proof.Machine
end

section
/-! The marks, SETCFG, resets, ticks and the memory bus, each made of effects, and with them every command and every
step. -/

namespace Sys2Proof.Machine

/-! ### Marks -/

theorem State.result_effects (s : State) (p : PortId) (w : Word) : State.Effects s (s.result p w) :=
  s.respond_effects p _

theorem State.collideRead_effects (s : State) (p : PortId) : State.Effects s (s.collideRead p) :=
  (s.setFlag_effects p _).trans (State.respond_effects _ p _)

theorem State.refuseReadMark_effects (s : State) (p : PortId) : State.Effects s (s.refuseReadMark p) :=
  (s.setFlag_effects p _).trans (State.respond_effects _ p _)

theorem State.refuseWriteMark_effects (s : State) (p : PortId) (f : Flag) :
    State.Effects s (s.refuseWriteMark p f) :=
  (s.setFlag_effects p _).trans (State.respond_effects _ p _)

theorem State.innerOpen_effects {s : State} {c : CtxId} (hopen : (s.ctx c).state = .opened) (p : PortId) (arg : Arg) :
    State.Effects s (s.innerOpen c p arg) := by
  unfold State.innerOpen
  simp only
  split_ifs with hbounded hdepth hlegal
  · exact (s.abort_effects ..).trans (State.result_effects _ p _)
  · exact (s.abort_effects ..).trans (State.result_effects _ p _)
  · exact (State.Effects.of (.enter s c arg hopen (by simpa using hbounded) hdepth hlegal)).trans
      (State.result_effects _ p _)
  · exact s.result_effects p _

theorem State.takeOpen_effects (s : State) (p : PortId) (arg : Arg) : State.Effects s (s.takeOpen p arg) := by
  unfold State.takeOpen
  simp only
  split
  · exact s.collideRead_effects p
  · split
    · exact s.result_effects p _
    · next hrun =>
      split
      · exact s.result_effects p _
      · next hidle =>
        unfold State.outermostOpen
        simp only
        split_ifs with hlegal
        · exact (State.Effects.of (.start s _ arg _ hidle (not_not.mp hrun) hlegal)).trans
            (State.result_effects _ p _)
        · exact s.result_effects p _
      · next hopen => exact State.innerOpen_effects hopen p arg
      · exact .refl s
      · exact .refl s

theorem State.openCycle_effects (s : State) (p : PortId) (arg : Arg) : State.Effects s (s.openCycle p arg) :=
  (s.breakPair_effects p).trans (State.takeOpen_effects _ p arg)

theorem State.closeOpen_effects {s : State} {p : PortId} (hcycle : (s.port p).cycle = none)
    (hopen : (s.ctx (s.serving p)).state = .opened) : State.Effects s (s.closeOpen (s.serving p) p) := by
  unfold State.closeOpen State.outermostClose
  simp only
  split_ifs with hdepth hempty
  · exact (State.Effects.of (.leave s _ hopen hdepth)).trans (State.result_effects _ p _)
  · exact (State.Effects.of (.close s _ hopen (by simpa using hempty))).trans (State.result_effects _ p _)
  · exact .of (.commit s _ p hopen (by simpa using hempty) (not_lt.mp hdepth) rfl hcycle)

theorem State.takeClose_effects {s : State} {p : PortId} (hcycle : (s.port p).cycle = none) (arg : Arg) :
    State.Effects s (s.takeClose p arg) := by
  unfold State.takeClose
  simp only
  split
  · exact s.collideRead_effects p
  · next hcollides =>
    split
    · exact s.result_effects p _
    · split
      · exact s.result_effects p _
      · next hopen => exact State.closeOpen_effects hcycle hopen
      · next haborting =>
        refine .of (.hold s _ p haborting ?_ rfl hcycle)
        simpa [haborting] using hcollides
      · next hdoomed => exact (State.Effects.of (.clear s _ hdoomed)).trans (State.result_effects _ p _)
      · exact .refl s

theorem State.closeCycle_effects {s : State} {p : PortId} (hcycle : (s.port p).cycle = none) (arg : Arg) :
    State.Effects s (s.closeCycle p arg) :=
  (s.breakPair_effects p).trans (State.takeClose_effects (State.cycle_none_breakPair hcycle) arg)

theorem State.writeMark_effects (s : State) (p : PortId) (code : Nat) (arg : Arg) (data : Word) (par : Lanes)
    {f : State → State} (hf : ∀ t : State, State.Effects t (f t)) :
    State.Effects s (s.writeMark p code arg data par f) := by
  unfold State.writeMark
  simp only
  refine (s.breakPair_effects p).trans ?_
  split_ifs
  · exact State.refuseParity_effects _ _ _
  · exact State.refuseWriteMark_effects _ _ _
  · exact hf _

theorem State.takeDrop_effects (s : State) (p : PortId) (arg : Arg) (data : Word) :
    State.Effects s (s.takeDrop p arg data) := by
  unfold State.takeDrop
  simp only
  split_ifs
  · exact s.refuseWriteMark_effects p _
  · exact (s.abort_effects ..).trans (State.respond_effects _ p _)
  · exact s.refuseWriteMark_effects p _

theorem State.takeRecAddr_effects (s : State) (p : PortId) (arg : Arg) (data : Word) :
    State.Effects s (s.takeRecAddr p arg data) := by
  unfold State.takeRecAddr
  split_ifs
  · exact (State.Effects.ofPort (.port s p { s.port p with pendRec := recAddrValue data } rfl rfl)).trans
      (State.respond_effects _ p _)
  · exact s.refuseWriteMark_effects p _

theorem State.takeStatus_effects (s : State) (p : PortId) (arg : Arg) : State.Effects s (s.takeStatus p arg) := by
  unfold State.takeStatus
  split_ifs
  · exact (State.result_effects _ p _).trans (State.clearFlags_effects _ p _)
  · exact State.refuseReadMark_effects _ p

theorem State.statusCycle_effects (s : State) (p : PortId) (arg : Arg) : State.Effects s (s.statusCycle p arg) :=
  (s.breakPair_effects p).trans (State.takeStatus_effects _ p arg)

theorem State.takeGetCfg_effects (s : State) (p : PortId) (item : Arg) : State.Effects s (s.takeGetCfg p item) := by
  unfold State.takeGetCfg
  split
  · split
    · exact State.result_effects _ p _
    · exact State.refuseReadMark_effects _ p
  · exact State.refuseReadMark_effects _ p

theorem State.getCfgCycle_effects (s : State) (p : PortId) (item : Arg) :
    State.Effects s (s.getCfgCycle p item) :=
  (s.breakPair_effects p).trans (State.takeGetCfg_effects _ p item)

/-! ### SETCFG -/

theorem State.configurable_iff (s : State) (p : PortId) :
    s.configurable p = true ↔ p = s.cfgPort ∧ s.allIdle ∧ s.jobs = [] := by
  simp [State.configurable, State.allIdle, and_assoc]

/-- What an item does to a state in which every context is IDLE is made of effects. -/
def ItemEffects (apply : State → Option State) : Prop :=
  ∀ s t : State, s.allIdle → apply s = some t → State.Effects s t

theorem State.setCfgCycle_effects (s : State) (p : PortId) (item : Arg) (data : Word) (par : Lanes)
    {apply : State → Option State} (happly : ItemEffects apply) :
    State.Effects s (s.setCfgCycle p item data par apply) := by
  refine s.writeMark_effects p 11 item data par fun t => ?_
  unfold State.takeSetCfg
  split
  · next hcfg =>
    obtain ⟨-, hidle, -⟩ := (t.configurable_iff p).mp hcfg
    split
    · next u hu => exact (happly t u hidle hu).trans (State.respond_effects _ p _)
    · exact t.refuseWriteMark_effects p _
  · exact t.refuseWriteMark_effects p _

theorem applyRegion_effects (k : Fin 8) (data : Word) : ItemEffects fun s => s.applyRegion k data := by
  intro s t _ h
  have hset : ∀ r, State.Effects s { s with regions := r } := fun r =>
    .ofPort (.setting s _ _ _ _ _ _ r _ _ _ _ _)
  simp only [State.applyRegion] at h
  split_ifs at h
  split at h
  · cases h
    exact hset _
  · split_ifs at h
    cases h
    exact hset _

theorem State.joinUpper_effects (s : State) (was now : Bool) (upper : CtxId) :
    State.Effects s (s.joinUpper was now upper) := by
  unfold State.joinUpper
  split
  · exact .of (.leaveEscalation s upper)
  · exact .refl s

theorem applyPairing_effects (data : Word) : ItemEffects fun s => s.applyPairing data := by
  intro s t hidle h
  simp only [State.applyPairing] at h
  split_ifs at h
  cases h
  exact ((State.Effects.of (.pairing s _ _ hidle)).trans (State.joinUpper_effects _ _ _ _)).trans
    (State.joinUpper_effects _ _ _ _)

theorem applyLifetime_effects (c : CtxId) (data : Word) : ItemEffects fun s => s.applyLifetime c data := by
  intro s t _ h
  simp only [State.applyLifetime] at h
  split_ifs at h <;> cases h <;> exact .ofPort (.setting s _ _ _ _ _ _ _ _ _ _ _ _)

theorem applyCaps_effects (data : Word) : ItemEffects fun s => s.applyCaps data := by
  intro s t hidle h
  simp only [State.applyCaps] at h
  split_ifs at h
  cases h
  exact .of (.caps s _ hidle)

theorem applyEscalation_effects (data : Word) : ItemEffects fun s => s.applyEscalation data := by
  intro s t hidle h
  simp only [State.applyEscalation] at h
  split_ifs at h
  cases h
  exact .of (.escalation s _ _ hidle)

theorem applyTickSource_effects (data : Word) : ItemEffects fun s => s.applyTickSource data := by
  intro s t _ h
  simp only [State.applyTickSource] at h
  split_ifs at h
  cases h
  exact .ofPort (.setting s _ _ _ _ _ _ _ _ _ _ _ _)

theorem applyMasks_effects (data : Word) : ItemEffects fun s => s.applyMasks data := by
  intro s t _ h
  simp only [State.applyMasks] at h
  split_ifs at h
  cases h
  exact .ofPort (.setting s _ _ _ _ _ _ _ _ _ _ _ _)

theorem applyItem_effects (item : Nat) (data : Word) : ItemEffects fun s => s.applyItem item data := by
  intro s t hidle h
  simp only [State.applyItem] at h
  split_ifs at h
  · exact applyRegion_effects _ data s t hidle h
  · exact applyPairing_effects data s t hidle h
  · exact applyLifetime_effects 0 data s t hidle h
  · exact applyLifetime_effects 1 data s t hidle h
  · exact applyLifetime_effects 2 data s t hidle h
  · exact applyLifetime_effects 3 data s t hidle h
  · exact applyCaps_effects data s t hidle h
  · exact applyEscalation_effects data s t hidle h
  · exact applyTickSource_effects data s t hidle h
  · exact applyMasks_effects data s t hidle h

/-! ### A cycle as its pins show it -/

theorem readMarkOf_port {p : PortId} {code : Nat} {arg : Arg} {i : Instr} (h : readMarkOf p code arg = some i) :
    ∃ q, i.pins = some (p, q) := by
  unfold readMarkOf at h
  split_ifs at h <;> cases h <;> exact ⟨_, rfl⟩

theorem setCfgOf_port (p : PortId) (item : Arg) (data : Word) (par : Lanes) :
    ∃ q, (setCfgOf p item data par).pins = some (p, q) := by
  unfold setCfgOf
  split_ifs <;> exact ⟨_, rfl⟩

theorem writeMarkOf_port {p : PortId} {code : Nat} {arg : Arg} {data : Word} {par : Lanes} {i : Instr}
    (h : writeMarkOf p code arg data par = some i) : ∃ q, i.pins = some (p, q) := by
  unfold writeMarkOf at h
  split_ifs at h <;> cases h
  · exact ⟨_, rfl⟩
  · exact ⟨_, rfl⟩
  · exact setCfgOf_port p arg data par

/-- The command read from the pins of a port is a cycle of that port. -/
theorem decodeCycle_port {p : PortId} {r : RawCycle} {i : Instr} (h : decodeCycle p r = some i) :
    ∃ q, i.pins = some (p, q) := by
  unfold decodeCycle at h
  split at h
  · cases h
  split at h
  · cases h
    exact ⟨_, rfl⟩
  split at h
  · cases h
    exact ⟨_, rfl⟩
  split at h
  · cases h
    exact ⟨_, rfl⟩
  split at h
  · cases h
    exact ⟨_, rfl⟩
  split at h
  · cases h
    exact ⟨_, rfl⟩
  split at h
  · exact readMarkOf_port h
  · exact writeMarkOf_port h

/-- The cycle that a command is, is made of effects at a port that has none in progress. -/
theorem State.takeCycle_effects {s : State} {i : Instr}
    (hcycle : ∀ p q, i.pins = some (p, q) → (s.port p).cycle = none) : State.Effects s (s.takeCycle i) := by
  cases i with
  | markOpen p arg => exact s.openCycle_effects p arg
  | markClose p arg => exact State.closeCycle_effects (hcycle p _ rfl) arg
  | markDrop p arg data par => exact s.writeMark_effects p _ _ _ _ fun t => t.takeDrop_effects p arg data
  | markRecAddr p arg data par => exact s.writeMark_effects p _ _ _ _ fun t => t.takeRecAddr_effects p arg data
  | markStatus p arg => exact s.statusCycle_effects p arg
  | markGetCfg p item => exact s.getCfgCycle_effects p item
  | setCfgRegion p k data par => exact s.setCfgCycle_effects p _ _ _ (applyRegion_effects k data)
  | setCfgPairing p data par => exact s.setCfgCycle_effects p _ _ _ (applyPairing_effects data)
  | setCfgLifetime p c data par => exact s.setCfgCycle_effects p _ _ _ (applyLifetime_effects c data)
  | setCfgSlotCaps p data par => exact s.setCfgCycle_effects p _ _ _ (applyCaps_effects data)
  | setCfgEscalation p data par => exact s.setCfgCycle_effects p _ _ _ (applyEscalation_effects data)
  | setCfgTickSource p data par => exact s.setCfgCycle_effects p _ _ _ (applyTickSource_effects data)
  | setCfgFaultMasks p data par => exact s.setCfgCycle_effects p _ _ _ (applyMasks_effects data)
  | setCfgUndefinedItem p item data par => exact s.setCfgCycle_effects p _ _ _ (applyItem_effects _ data)
  | memRead p addr ens => exact State.readCycle_effects (hcycle p _ rfl) addr ens
  | memWrite p addr data => exact State.writeCycle_effects (hcycle p _ rfl) addr data.beats
  | lockRead p addr en => exact State.lockReadCycle_effects (hcycle p _ rfl) addr en
  | lockWrite p addr beat => exact State.lockWriteCycle_effects (hcycle p _ rfl) addr beat
  | malformedCycle p raw => exact State.malformedTaken_effects (hcycle p _ rfl) raw
  | _ => exact .refl s

theorem State.takeRaw_effects {s : State} {p : PortId} (hcycle : (s.port p).cycle = none) (r : RawCycle) :
    State.Effects s (s.takeRaw p r) := by
  unfold State.takeRaw
  split
  · next i hi =>
    obtain ⟨q, hq⟩ := decodeCycle_port hi
    refine State.takeCycle_effects fun p' q' h => ?_
    rw [hq] at h
    cases h
    exact hcycle
  · exact .refl s

/-! ### Quiesce and port reset -/

theorem State.quiesceRequest_effects (s : State) : State.Effects s s.quiesceRequest := by
  unfold State.quiesceRequest
  split
  · exact .of (.drain s ‹_›)
  · exact .refl s

theorem State.setCtx_setCtx (s : State) (c : CtxId) (x y : Context) : (s.setCtx c x).setCtx c y = s.setCtx c y := by
  simp [State.setCtx]

theorem State.resetJoined_effects (s : State) (c : CtxId) (p : PortId) :
    State.Effects (s.discardClose c p) (s.resetJoined c p) := by
  unfold State.resetJoined State.discardClose State.onHold
  cases hstate : (s.ctx c).state with
  | opened => simpa [hstate] using s.abort_effects c .portReset none none
  | _ => simpa [hstate] using State.Effects.refl _

theorem State.resetSeparate_effects (s : State) (c : CtxId) (p : PortId) :
    State.Effects (s.discardClose c p) (s.resetSeparate c p) := by
  unfold State.resetSeparate State.discardClose State.onHold
  cases hstate : (s.ctx c).state with
  | opened =>
    simpa [hstate] using (State.Effects.of (.release s c (.inl hstate))).trans
      (State.abort_effects _ c .portReset none none)
  | aborting =>
    have hdiscard : ((s.ctx c).discardHeld p).state = .aborting := by
      unfold Context.discardHeld
      split <;> exact hstate
    have h : State.Effect (s.setCtx c ((s.ctx c).discardHeld p))
        ((s.setCtx c ((s.ctx c).discardHeld p)).setCtx c
          { (s.setCtx c ((s.ctx c).discardHeld p)).ctx c with release := true }) :=
      .release _ c (.inr (by simpa using hdiscard))
    rw [State.setCtx_setCtx, State.ctx_setCtx, if_pos rfl] at h
    simpa [hstate] using State.Effects.of h
  | doomed => simpa [hstate] using State.Effects.of (.clear s c hstate)
  | _ => simpa [hstate] using State.Effects.refl _

theorem State.portResetTaken_effects (s : State) (p : PortId) : State.Effects s (s.portResetTaken p) := by
  have hreset : State.Effects s (if s.joined p then (s.resetPort p).resetJoined (s.serving p) p
      else (s.resetPort p).resetSeparate (s.serving p) p) := by
    refine (State.Effects.of (.portGone s p)).trans ?_
    split
    · exact State.resetJoined_effects _ _ _
    · exact State.resetSeparate_effects _ _ _
  exact (hreset.trans (.of (.leaveEscalation _ _))).trans (State.clearFlags_effects _ p _)

/-! ### Time -/

theorem State.tickCtx_effects (s : State) (c : CtxId) : State.Effects s (s.tickCtx c).1 := by
  unfold State.tickCtx
  split
  · exact .of (.count s c _ _ (Nat.min_le_left _ _) (.inr rfl))
  · exact .refl s

theorem State.tickCtxs_effects (l : List CtxId) (s : State) : State.Effects s (s.tickCtxs l).1 := by
  induction l generalizing s with
  | nil => exact .refl s
  | cons c rest ih => exact (s.tickCtx_effects c).trans (ih _)

theorem State.takeItem_effects (s : State) (i : TickItem) : State.Effects s (s.takeItem i) := by
  cases i with
  | expiry c => exact s.abort_effects c .timeout none none
  | window => exact .of (.windowTick s)

theorem State.takeTick_effects (s : State) : State.Effects s s.takeTick := by
  unfold State.takeTick
  simp only [State.inFreeOrder]
  refine foldl_invariant (State.Effects s) _ _ (fun t i _ h => h.trans (t.takeItem_effects i)) _ ?_
  exact (State.tickCtxs_effects four s).trans (.ofPort (.setting _ _ _ _ _ _ _ _ _ _ _ _ _))

theorem State.divisorTick_effects (s : State) : State.Effects s s.divisorTick := by
  unfold State.divisorTick
  split
  · exact .refl s
  · exact (State.Effects.ofPort (.setting s _ _ _ 0 _ _ _ _ _ _ _ _)).trans (State.takeTick_effects _)

theorem State.pinHigh_effects (s : State) : State.Effects s s.pinHigh := by
  have hlevel : State.Effects s { s with tickLevel := true } := .ofPort (.setting s _ _ _ _ true _ _ _ _ _ _ _)
  unfold State.pinHigh
  simp only
  split
  · exact hlevel.trans (State.takeTick_effects _)
  · exact hlevel

theorem State.answerNext_effects (s : State) (p : PortId) : State.Effects s (s.answerNext p) := by
  unfold State.answerNext
  split
  · next h => exact State.giveBeats_effects (by simp [h, Cycle.atPort]) _ _ _ _
  · exact .refl s

theorem State.answerAll_effects (s : State) : State.Effects s s.answerAll :=
  foldl_invariant (State.Effects s) _ _ (fun t p _ h => h.trans (t.answerNext_effects p)) _ (.refl s)

theorem State.partClock_effects (s : State) : State.Effects s s.partClock := by
  unfold State.partClock State.divisorClock
  split_ifs
  · exact .refl s
  · exact s.answerAll_effects
  · exact s.answerAll_effects.trans (.ofPort (.setting _ _ _ _ _ _ _ _ _ _ _ _ _))
  · exact (s.answerAll_effects.trans (State.divisorTick_effects _)).trans (State.settle_effects _)

/-! ### The memory bus -/

theorem State.reportReadError_effects (s : State) (p : PortId) (g : Option GroupRef) (a : Addr) :
    State.Effects s (s.reportReadError p g a) := by
  unfold State.reportReadError
  split
  · split_ifs
    · exact s.abort_effects ..
    · exact s.setFlag_effects p _
  · exact s.setFlag_effects p _

theorem State.beatToOwner_effects (s : State) (b : BusBurst) (bad : Bool) (data : Word) :
    State.Effects s (s.beatToOwner b bad data) := by
  unfold State.beatToOwner State.readBeatAnswered
  split
  · split
    · exact .refl s
    · split
      · simp only
        split
        · exact (s.respond_effects _ _).trans (State.reportReadError_effects _ _ _ _)
        · exact s.respond_effects _ _
      · exact .refl s
  · exact .refl s

theorem State.bus_reportReadError (s : State) (p : PortId) (g : Option GroupRef) (a : Addr) :
    (s.reportReadError p g a).bus = s.bus := by
  unfold State.reportReadError
  split
  · split <;> simp
  · simp

theorem State.bus_beatToOwner (s : State) (b : BusBurst) (bad : Bool) (data : Word) :
    (s.beatToOwner b bad data).bus = s.bus := by
  unfold State.beatToOwner State.readBeatAnswered
  split
  · split
    · rfl
    · split
      · simp only
        split <;> simp [State.bus_reportReadError]
      · rfl
  · rfl

theorem State.engineRun_setJobs (s : State) (l m : List Job) : (s.setJobs m).engineRun l = s.engineRun l := by
  cases l with
  | nil => rfl
  | cons j rest =>
    have hcommit : ∀ (is : List SlotId) (n f k : Nat), (s.setJobs m).commitTurns is n f k = s.commitTurns is n f k := by
      intro is
      induction is with
      | nil => intros; rfl
      | cons i is ih =>
        intro n f k
        have hread : (s.setJobs m).readOut i = s.readOut i := rfl
        simp only [State.commitTurns, hread, ih]
    have hsets : ∀ m' : List Job, (s.setJobs m).setJobs m' = s.setJobs m' := fun _ => rfl
    unfold State.engineRun
    simp only [hcommit, hsets]
    simp

/-- The Engine runs on a queue whose head has moved on (R79). -/
theorem State.engineRun_effects {s : State} {j k : Job} {rest : List Job} (hjobs : s.jobs = j :: rest)
    (hctx : k.ctx = j.ctx) (hkind : k.isCommit = j.isCommit) : State.Effects s (s.engineRun (k :: rest)) := by
  have h : State.Effects s ((s.setJobs (k :: rest)).engineRun (k :: rest)) :=
    State.engineRun_keeps s.settleKeeps_effects _ _ (.of (.jobMoves s j k rest hjobs hctx hkind)) rfl
  rwa [State.engineRun_setJobs] at h

theorem State.engineBurstDone_effects (s : State) (bad : Bool) : State.Effects s (s.engineBurstDone bad) := by
  unfold State.engineBurstDone
  split
  · next hjobs => exact State.engineRun_effects hjobs rfl rfl
  · next c a i rest hjobs =>
    have h : State.Effects s ((s.setJobs rest).recordFinish c bad bad) :=
      .of (.recordDone s ⟨c, .record a i, .writing⟩ rest bad bad hjobs rfl)
    exact State.engineRun_keeps s.settleKeeps_effects _ _ h (by simp)
  · exact .refl s

/-- A port's burst completes: what is answered, and then the end of burst and cycle at once (R162, R169, R170). -/
theorem State.portBurstDone_effects {s : State} {p : PortId} {b : BusBurst} (hbus : s.bus = some b)
    (howner : b.owner = .port p) : State.Effects s ((s.setBus none).portBurstDone p b) := by
  have hlanded : ∀ t : State, State.Effects t (t.landed p b) := by
    intro t
    unfold State.landed
    split
    · exact t.setInFlight_effects _
    · exact .refl t
  have hanswered : State.Effects s (if b.burst.write then (s.landed p b).writeAnswered p b.bad else s.landed p b) := by
    refine (hlanded s).trans ?_
    unfold State.writeAnswered
    split_ifs
    · exact (State.setFlag_effects _ p _).trans (State.respond_effects _ p _)
    · exact State.respond_effects _ p _
    · exact .refl _
  unfold State.portBurstDone
  simp only
  cases horphan : b.orphan with
  | true => exact (State.Effects.ofPort (.busFree s)).trans (hlanded _)
  | false =>
    have hstill : (if b.burst.write then (s.landed p b).writeAnswered p b.bad else s.landed p b).bus = some b := by
      unfold State.writeAnswered State.landed
      split_ifs <;> simpa using hbus
    have hend := hanswered.trans (.ofPort (.burstEnds _ p b hstill howner horphan))
    simp only [Bool.false_eq_true, if_false]
    unfold State.landed State.writeAnswered at *
    split_ifs at hend ⊢ <;> exact hend

theorem State.takeBeat_effects (s : State) (xerr : Bool) (data : Word) (par : Lanes) :
    State.Effects s (s.takeBeat xerr data par) := by
  unfold State.takeBeat
  split
  · exact .refl s
  · next b hbus =>
    simp only
    have hbus1 : (s.beatToOwner b (beatError b xerr data par) data).bus = some b :=
      (s.bus_beatToOwner b _ data).trans hbus
    refine (s.beatToOwner_effects b (beatError b xerr data par) data).trans ?_
    generalize s.beatToOwner b (beatError b xerr data par) data = t at hbus1 ⊢
    have hbeat := State.Effects.ofPort
      (.beat t b (b.answered + 1) (b.bad || beatError b xerr data par) hbus1)
    split_ifs
    · exact hbeat
    · refine hbeat.trans ?_
      unfold State.burstDone
      simp only
      split
      · next p hp => exact State.portBurstDone_effects rfl hp
      · exact (State.Effects.ofPort (.busFree _)).trans (State.engineBurstDone_effects _ _)

/-! ### Every command, every step -/

theorem State.storageFault_effects (s : State) (i : SlotId) (k : Fin 32) (flip : Byte) (flipPar : Bool) :
    State.Effects s (match s.slots[i] with
      | some b => s.setSlot i (some { b with
          bytes := b.bytes.set k ((b.bytes[k]).map fun x => x.upset flip flipPar) })
      | none => s) := by
  split
  · next b hb =>
    refine .of (.store s i b _ hb fun h => ?_)
    obtain ⟨n, hn, hsome⟩ := (any_isSome_iff _).mp h
    refine (any_isSome_iff _).mpr ⟨n, hn, ?_⟩
    rw [Vector.getElem_set]
    split
    · next hk =>
      subst hk
      simpa using hsome
    · exact hsome
  · exact .refl s

/-- Every command is made of effects. -/
theorem exec_effects (i : Instr) (s t : State) (h : exec i s = .next t) : State.Effects s t := by
  cases i with
  | markOpen p arg =>
    obtain rfl := Host.Outcome.next.inj h
    exact s.cycle_effects p fun t _ => t.openCycle_effects p arg
  | markClose p arg =>
    obtain rfl := Host.Outcome.next.inj h
    exact s.cycle_effects p fun t ht => State.closeCycle_effects ht arg
  | markDrop p arg data par =>
    obtain rfl := Host.Outcome.next.inj h
    exact s.cycle_effects p fun t _ => t.writeMark_effects p _ _ _ _ fun u => u.takeDrop_effects p arg data
  | markRecAddr p arg data par =>
    obtain rfl := Host.Outcome.next.inj h
    exact s.cycle_effects p fun t _ => t.writeMark_effects p _ _ _ _ fun u => u.takeRecAddr_effects p arg data
  | markStatus p arg =>
    obtain rfl := Host.Outcome.next.inj h
    exact s.cycle_effects p fun t _ => t.statusCycle_effects p arg
  | markGetCfg p item =>
    obtain rfl := Host.Outcome.next.inj h
    exact s.cycle_effects p fun t _ => t.getCfgCycle_effects p item
  | setCfgRegion p k data par =>
    obtain rfl := Host.Outcome.next.inj h
    exact s.cycle_effects p fun t _ => t.setCfgCycle_effects p _ _ _ (applyRegion_effects k data)
  | setCfgPairing p data par =>
    obtain rfl := Host.Outcome.next.inj h
    exact s.cycle_effects p fun t _ => t.setCfgCycle_effects p _ _ _ (applyPairing_effects data)
  | setCfgLifetime p c data par =>
    obtain rfl := Host.Outcome.next.inj h
    exact s.cycle_effects p fun t _ => t.setCfgCycle_effects p _ _ _ (applyLifetime_effects c data)
  | setCfgSlotCaps p data par =>
    obtain rfl := Host.Outcome.next.inj h
    exact s.cycle_effects p fun t _ => t.setCfgCycle_effects p _ _ _ (applyCaps_effects data)
  | setCfgEscalation p data par =>
    obtain rfl := Host.Outcome.next.inj h
    exact s.cycle_effects p fun t _ => t.setCfgCycle_effects p _ _ _ (applyEscalation_effects data)
  | setCfgTickSource p data par =>
    obtain rfl := Host.Outcome.next.inj h
    exact s.cycle_effects p fun t _ => t.setCfgCycle_effects p _ _ _ (applyTickSource_effects data)
  | setCfgFaultMasks p data par =>
    obtain rfl := Host.Outcome.next.inj h
    exact s.cycle_effects p fun t _ => t.setCfgCycle_effects p _ _ _ (applyMasks_effects data)
  | setCfgUndefinedItem p item data par =>
    obtain rfl := Host.Outcome.next.inj h
    exact s.cycle_effects p fun t _ => t.setCfgCycle_effects p _ _ _ (applyItem_effects _ data)
  | memRead p addr ens =>
    obtain rfl := Host.Outcome.next.inj h
    exact s.cycle_effects p fun t ht => State.readCycle_effects ht addr ens
  | memWrite p addr data =>
    obtain rfl := Host.Outcome.next.inj h
    exact s.arrive_effects p _ fun q t ht => State.writeCycle_effects ht _ _
  | lockRead p addr en =>
    obtain rfl := Host.Outcome.next.inj h
    exact s.cycle_effects p fun t ht => State.lockReadCycle_effects ht addr en
  | lockWrite p addr beat =>
    obtain rfl := Host.Outcome.next.inj h
    exact s.cycle_effects p fun t ht => State.lockWriteCycle_effects ht addr beat
  | malformedCycle p raw =>
    obtain rfl := Host.Outcome.next.inj h
    split_ifs
    · exact .refl s
    · exact s.arrive_effects p raw fun q t ht => State.takeRaw_effects ht q
    · exact s.cycle_effects p fun t ht => State.takeRaw_effects ht raw
  | portReset p =>
    obtain rfl := Host.Outcome.next.inj h
    split
    · exact .refl s
    · exact (s.portResetTaken_effects p).trans (State.settle_effects _)
  | partReset straps =>
    obtain rfl := Host.Outcome.next.inj h
    exact .of (.partReset s straps)
  | qreqAsserted =>
    obtain rfl := Host.Outcome.next.inj h
    have hline : State.Effects s { s with qreq := true } := .ofPort (.setting s _ _ _ _ _ _ _ _ true _ _ _)
    split
    · exact hline
    · exact (hline.trans (State.quiesceRequest_effects _)).trans (State.settle_effects _)
  | qreqNegated =>
    obtain rfl := Host.Outcome.next.inj h
    exact (State.Effects.ofPort (.setting s _ _ _ _ _ _ _ _ false _ _ _)).trans (.of (.running _))
  | tick cause =>
    obtain rfl := Host.Outcome.next.inj h
    split
    · exact .refl s
    · cases cause with
      | divisor => exact s.divisorTick_effects.trans (State.settle_effects _)
      | pinHigh => exact s.pinHigh_effects.trans (State.settle_effects _)
  | lifetimeExpiry c =>
    obtain rfl := Host.Outcome.next.inj h
    split
    · exact (s.abort_effects ..).trans (State.settle_effects _)
    · exact .refl s
  | windowExpiry =>
    obtain rfl := Host.Outcome.next.inj h
    split
    · exact .of (.windowExpires s)
    · exact .refl s
  | storageFault i k flip flipPar =>
    obtain rfl := Host.Outcome.next.inj h
    exact s.storageFault_effects i k flip flipPar
  | grant =>
    obtain rfl := Host.Outcome.next.inj h
    exact s.arbitrate_effects
  | memoryBeatAnswer xerr data par =>
    obtain rfl := Host.Outcome.next.inj h
    exact (s.takeBeat_effects xerr data par).trans (State.settle_effects _)
  | jobStart =>
    obtain rfl := Host.Outcome.next.inj h
    exact s.settle_effects
  | portResetRelease p =>
    obtain rfl := Host.Outcome.next.inj h
    exact .ofPort (.port s p _ rfl rfl)
  | partResetRelease =>
    obtain rfl := Host.Outcome.next.inj h
    have hline : State.Effects s { s with rst := false } := .ofPort (.setting s _ _ _ _ _ _ _ _ _ false _ _)
    split
    · refine State.Effects.trans ?_ (State.settle_effects _)
      split
      · exact hline.trans (State.quiesceRequest_effects _)
      · exact hline
    · exact .refl s
  | tickPinFall =>
    obtain rfl := Host.Outcome.next.inj h
    split
    · exact .refl s
    · exact .ofPort (.setting s _ _ _ _ false _ _ _ _ _ _ _)

/-- Every step is made of effects: what each effect keeps, every step keeps. -/
theorem step_effects {s t : State} (h : step s = .next t) : State.Effects s t := by
  unfold step at h
  split at h
  · obtain rfl := Host.Outcome.next.inj h
    exact s.partClock_effects
  · next c rest _ =>
    exact (State.Effects.ofPort (.setting s _ _ _ _ _ _ _ _ _ _ _ rest)).trans (exec_effects c _ t h)

/-- A property that every effect keeps is kept by every step. -/
theorem step_keeps {P : State → Prop} (hP : ∀ s t, State.Effect s t → P s → P t) {s t : State} (hs : P s)
    (h : step s = .next t) : P t :=
  (step_effects h).keeps hP hs

end Sys2Proof.Machine
end

section
/-! The job queue (R72, R73): every step keeps it matched to the contexts, and only its head at work. -/

namespace Sys2Proof.Machine

/-! ### What no effect at the ports touches -/

/-- An effect at the ports leaves groups, slots, jobs, contention, pairing and the bridge state. -/
theorem State.PortEffect.frame {s t : State} (h : State.PortEffect s t) :
    t.ctxs = s.ctxs ∧ t.ages = s.ages ∧ t.readSets = s.readSets ∧ t.slots = s.slots ∧ t.orders = s.orders ∧
    t.caps = s.caps ∧ t.jobs = s.jobs ∧ t.counters = s.counters ∧ t.prioQueue = s.prioQueue ∧ t.token = s.token ∧
    t.window = s.window ∧ t.threshold = s.threshold ∧ t.windowLen = s.windowLen ∧ t.joinA = s.joinA ∧
    t.joinB = s.joinB ∧ t.bridge = s.bridge := by
  cases h <;> exact ⟨rfl, rfl, rfl, rfl, rfl, rfl, rfl, rfl, rfl, rfl, rfl, rfl, rfl, rfl, rfl, rfl⟩

/-- Entry to DRAINING keeps what each abort keeps and what does not speak of the bridge state. -/
theorem State.enterDraining_keeps {P : State → Prop}
    (habort : ∀ (s : State) (c : CtxId), (s.ctx c).state = .opened → P s → P (s.takeAbort c .quiesce none none))
    (hbridge : ∀ (s : State) (b : Bridge), P s → P (s.setBridge b))
    (hfree : ∀ (s : State) (n : Nat), P s → P (s.setFreeCount n)) {s : State} (hs : P s) : P s.enterDraining := by
  have haborts : P ((s.setBridge .draining).abortAll (s.setBridge .draining).openCtxs .quiesce) := by
    refine State.abortAll_invariant P _ _ _ _ (fun t c _ ht => ?_) hfree _ (hbridge s _ hs)
    unfold State.abort
    split
    · exact habort t c ‹_› ht
    · exact ht
  unfold State.enterDraining
  simp only [State.drainTest_eq]
  exact hbridge _ _ haborts

/-! ### Jobs by context and kind -/

/-- The kind of job that a context in this state has in the queue: `true` a commit, `false` a record (R72). -/
def CtxState.job : CtxState → Option Bool
  | .committing => some true
  | .aborting => some false
  | .idle | .opened | .doomed => none

/-- The jobs of the queue by context and kind. -/
def State.jobKeys (s : State) : List (CtxId × Bool) := s.jobs.map fun j => (j.ctx, j.isCommit)

theorem State.jobsMatch_iff (s : State) :
    s.jobsMatch = true ↔ (s.jobKeys.map Prod.fst).Nodup ∧
      ∀ c b, (c, b) ∈ s.jobKeys ↔ (s.ctx c).state.job = some b := by
  have hkeys : s.jobKeys.map Prod.fst = s.jobs.map Job.ctx := by simp [State.jobKeys, Function.comp_def]
  have hmem : ∀ c b, (c, b) ∈ s.jobKeys ↔ ∃ j ∈ s.jobs, j.ctx = c ∧ j.isCommit = b := by simp [State.jobKeys]
  have hstate : ∀ (x : CtxState) (a b : Prop),
      ((x = .committing ↔ a) ∧ (x = .aborting ↔ b)) ↔ ((a ↔ x.job = some true) ∧ (b ↔ x.job = some false)) := by
    intro x a b
    cases x <;> simp [CtxState.job]
  have hbeq : ∀ a b : Bool, (a == b) = true ↔ (a = true ↔ b = true) := by decide
  simp only [State.jobsMatch, Bool.and_eq_true, decide_eq_true_eq, List.all_eq_true, mem_four, forall_const, hkeys,
    Bool.forall_bool, hmem, hbeq, beq_iff_eq, List.any_eq_true, Bool.not_eq_true', and_congr_right_iff]
  intro _
  refine forall_congr' fun c => ?_
  rw [and_comm (b := (_ ↔ (s.ctx c).state.job = some true))]
  exact hstate (s.ctx c).state _ _

/-- No job comes or goes, and no context enters or leaves its hold. -/
theorem State.jobsMatch_congr {s t : State} (hs : s.jobsMatch) (hkeys : t.jobKeys = s.jobKeys)
    (hctx : ∀ c, (t.ctx c).state.job = (s.ctx c).state.job) : t.jobsMatch := by
  rw [State.jobsMatch_iff] at hs ⊢
  simpa only [hkeys, hctx] using hs

/-- A context without a job goes on hold, and its job comes to the tail (R69, R99). -/
theorem State.jobsMatch_append {s t : State} {c : CtxId} {b : Bool} (hs : s.jobsMatch)
    (hkeys : t.jobKeys = s.jobKeys ++ [(c, b)]) (hfree : (s.ctx c).state.job = none)
    (hself : (t.ctx c).state.job = some b) (hctx : ∀ d, d ≠ c → (t.ctx d).state.job = (s.ctx d).state.job) :
    t.jobsMatch := by
  rw [State.jobsMatch_iff] at hs ⊢
  obtain ⟨hnodup, hmem⟩ := hs
  have hno : ∀ b', (c, b') ∉ s.jobKeys := fun b' h => by simp [hmem, hfree] at h
  rw [hkeys]
  refine ⟨?_, fun d b' => ?_⟩
  · rw [List.map_append, List.nodup_append]
    refine ⟨hnodup, by simp, ?_⟩
    rintro _ hd _ hc rfl
    obtain ⟨⟨d, b'⟩, hk, rfl⟩ := List.mem_map.mp hd
    simp only [List.map_cons, List.map_nil, List.mem_singleton] at hc
    exact hno b' (hc ▸ hk)
  · by_cases hd : d = c
    · subst hd
      simp [hno, hself, eq_comm]
    · simp [hd, hctx d hd, hmem]

/-- The head's context leaves its hold, and the head leaves the queue (R80, R103). -/
theorem State.jobsMatch_tail {s t : State} {c : CtxId} {b : Bool} (hs : s.jobsMatch)
    (hkeys : s.jobKeys = (c, b) :: t.jobKeys) (hself : (t.ctx c).state.job = none)
    (hctx : ∀ d, d ≠ c → (t.ctx d).state.job = (s.ctx d).state.job) : t.jobsMatch := by
  rw [State.jobsMatch_iff] at hs ⊢
  rw [hkeys] at hs
  obtain ⟨hnodup, hmem⟩ := hs
  rw [List.map_cons, List.nodup_cons] at hnodup
  refine ⟨hnodup.2, fun d b' => ?_⟩
  by_cases hd : d = c
  · subst hd
    have : (d, b') ∉ t.jobKeys := fun h => hnodup.1 (List.mem_map.mpr ⟨_, h, rfl⟩)
    simp [this, hself]
  · simpa [hd, hctx d hd] using hmem d b'

/-! ### Every effect keeps the jobs matched -/

theorem Context.job_afterAbort (x : Context) (code : AbortCode) :
    (x.afterAbort code).state.job = if x.recAddr.isSome then some false else none := by
  unfold Context.afterAbort
  simp only
  split_ifs <;> rfl

theorem State.jobsMatch_takeAbort {s : State} {c : CtxId} (hs : s.jobsMatch) (hopen : (s.ctx c).state = .opened)
    (code : AbortCode) (cause : Option Addr) (party : Option Party) :
    (s.takeAbort c code cause party).jobsMatch := by
  have hfree : (s.ctx c).state.job = none := by simp [hopen, CtxState.job]
  have hother : ∀ d, d ≠ c → ((s.takeAbort c code cause party).ctx d).state.job = (s.ctx d).state.job := by
    intro d hd
    simp [hd]
  have hself : ((s.takeAbort c code cause party).ctx c).state.job = _ :=
    (by simp : _ = ((s.ctx c).afterAbort code).state.job).trans (Context.job_afterAbort _ code)
  cases hrec : (s.ctx c).recAddr with
  | none =>
    refine State.jobsMatch_congr hs (by simp [State.jobKeys, State.abortJobs, hrec]) fun d => ?_
    by_cases hd : d = c
    · rw [hd, hself, hfree, hrec]
      rfl
    · exact hother d hd
  | some a =>
    refine State.jobsMatch_append (c := c) (b := false) hs ?_ hfree ?_ hother
    · simp [State.jobKeys, State.abortJobs, hrec, Job.isCommit]
    · rw [hself, hrec]
      rfl

theorem Context.job_afterRecord (x : Context) : x.afterRecord.state.job = none := by
  unfold Context.afterRecord
  split <;> rfl

@[simp] theorem Context.state_toIdle (x : Context) : x.toIdle.state = .idle := rfl

@[simp] theorem Context.state_withLevels (x : Context) (ls : List Level) : (x.withLevels ls).state = x.state := rfl

@[simp] theorem Context.state_discardHeld (x : Context) (p : PortId) : (x.discardHeld p).state = x.state := by
  unfold Context.discardHeld
  split <;> rfl

/-- A context changed without a change of hold leaves the jobs matched. -/
theorem State.jobsMatch_setCtx {s t : State} {c : CtxId} {x : Context} (hs : s.jobsMatch) (hjobs : t.jobs = s.jobs)
    (hctx : ∀ d, t.ctx d = if d = c then x else s.ctx d) (hx : x.state.job = (s.ctx c).state.job) : t.jobsMatch := by
  refine State.jobsMatch_congr hs (by simp [State.jobKeys, hjobs]) fun d => ?_
  rw [hctx]
  split
  · next hd => rw [hd, hx]
  · rfl

/-- What the effects on no context and no job leave matched. -/
theorem State.jobsMatch_frame {s t : State} (hs : s.jobsMatch) (hjobs : t.jobs = s.jobs)
    (hctx : ∀ d, t.ctx d = s.ctx d) : t.jobsMatch :=
  State.jobsMatch_congr hs (by simp [State.jobKeys, hjobs]) fun d => by rw [hctx]

theorem State.ctx_commitStart (s : State) (c : CtxId) (p : PortId) (d : CtxId) :
    (s.commitStart c p).ctx d =
      if d = c then { s.ctx c with state := .committing, held := some p } else s.ctx d := by
  unfold State.commitStart State.holdClose State.leaveOpen
  by_cases hd : d = c <;> simp [hd]

theorem State.jobs_commitStart (s : State) (c : CtxId) (p : PortId) :
    (s.commitStart c p).jobs = s.jobs ++ [⟨c, .commit (s.order c).length 0 0, .waiting⟩] := by
  simp [State.commitStart, State.holdClose, State.leaveOpen]

theorem State.ctx_portGone (s : State) (p : PortId) (d : CtxId) :
    (s.portGone p).ctx d = if d = s.serving p ∧ s.onHold d then (s.ctx d).discardHeld p else s.ctx d := by
  have hctx : ∀ e, (s.resetPort p).ctx e = s.ctx e := by
    intro e
    simp only [State.resetPort, State.setPort_views, State.orphanBurst, State.setBus_views, State.setReq_views,
      State.dropInFlight]
    split
    · split <;> rfl
    · rfl
  have hhold : (s.resetPort p).onHold (s.serving p) = s.onHold (s.serving p) := by simp [State.onHold, hctx]
  unfold State.portGone State.discardClose
  rw [hhold]
  by_cases hd : d = s.serving p
  · subst hd
    cases h : s.onHold (s.serving p) <;> simp [hctx]
  · cases s.onHold (s.serving p) <;> simp [hctx, hd]

theorem State.portGone_frame (s : State) (p : PortId) :
    (s.portGone p).ages = s.ages ∧ (s.portGone p).readSets = s.readSets ∧ (s.portGone p).slots = s.slots ∧
    (s.portGone p).orders = s.orders ∧ (s.portGone p).caps = s.caps ∧ (s.portGone p).jobs = s.jobs ∧
    (s.portGone p).counters = s.counters ∧ (s.portGone p).prioQueue = s.prioQueue ∧
    (s.portGone p).token = s.token ∧ (s.portGone p).window = s.window ∧
    (s.portGone p).threshold = s.threshold ∧ (s.portGone p).windowLen = s.windowLen ∧
    (s.portGone p).joinA = s.joinA ∧ (s.portGone p).joinB = s.joinB ∧ (s.portGone p).bridge = s.bridge := by
  unfold State.portGone State.discardClose State.resetPort State.orphanBurst State.dropInFlight
  simp only
  split <;> split <;> (try split) <;> exact ⟨rfl, rfl, rfl, rfl, rfl, rfl, rfl, rfl, rfl, rfl, rfl, rfl, rfl, rfl, rfl⟩

theorem State.setEscalation_frame (s : State) (t : BitVec 4) (w : BitVec 8) :
    (s.setEscalation t w).ctxs = s.ctxs ∧ (s.setEscalation t w).ages = s.ages ∧
    (s.setEscalation t w).readSets = s.readSets ∧ (s.setEscalation t w).slots = s.slots ∧
    (s.setEscalation t w).orders = s.orders ∧ (s.setEscalation t w).caps = s.caps ∧
    (s.setEscalation t w).jobs = s.jobs ∧ (s.setEscalation t w).counters = s.counters ∧
    (s.setEscalation t w).threshold = t ∧ (s.setEscalation t w).windowLen = w ∧
    (s.setEscalation t w).ports = s.ports ∧ (s.setEscalation t w).bus = s.bus ∧
    (s.setEscalation t w).reqs = s.reqs ∧ (s.setEscalation t w).joinA = s.joinA ∧
    (s.setEscalation t w).joinB = s.joinB ∧ (s.setEscalation t w).bridge = s.bridge := by
  unfold State.setEscalation
  simp only
  split
  · exact ⟨rfl, rfl, rfl, rfl, rfl, rfl, rfl, rfl, rfl, rfl, rfl, rfl, rfl, rfl, rfl, rfl⟩
  · split <;> exact ⟨rfl, rfl, rfl, rfl, rfl, rfl, rfl, rfl, rfl, rfl, rfl, rfl, rfl, rfl, rfl, rfl⟩

theorem jobsMatch_kept (s t : State) (h : State.Effect s t) (hs : s.jobsMatch) : t.jobsMatch := by
  cases h with
  | port h =>
    obtain ⟨hctxs, -, -, -, -, -, hjobs, -⟩ := h.frame
    exact State.jobsMatch_frame hs hjobs (State.ctx_congr hctxs)
  | abort c code cause party hopen => exact State.jobsMatch_takeAbort hs hopen code cause party
  | count c life cycles => exact State.jobsMatch_setCtx hs rfl (State.ctx_setCtx s c · _) rfl
  | countCycle c cycles => exact State.jobsMatch_setCtx hs rfl (State.ctx_setCtx s c · _) rfl
  | start c arg rec hidle =>
    refine State.jobsMatch_setCtx (c := c) (x := (s.ctx c).started arg rec) hs (by simp) (fun d => by simp) ?_
    simp [hidle, Context.started, CtxState.job]
  | enter c arg => exact State.jobsMatch_setCtx hs rfl (State.ctx_setCtx s c · _) rfl
  | leave c => exact State.jobsMatch_setCtx hs rfl (State.ctx_setCtx s c · _) rfl
  | close c hopen =>
    refine State.jobsMatch_setCtx (c := c) (x := (s.ctx c).toIdle) hs (by simp [State.leaveOpen])
      (fun d => by simp [State.leaveOpen]) (by simp [hopen, CtxState.job])
  | commit c p hopen =>
    refine State.jobsMatch_append (c := c) (b := true) hs ?_ (by simp [hopen, CtxState.job]) ?_ fun d hd => ?_
    · simp [State.jobKeys, State.jobs_commitStart, Job.isCommit]
    · simp [State.ctx_commitStart, CtxState.job]
    · simp [State.ctx_commitStart, hd]
  | hold c p haborting =>
    exact State.jobsMatch_setCtx (c := c) (x := { s.ctx c with held := some p }) hs (by simp [State.holdClose])
      (fun d => by simp [State.holdClose]) rfl
  | clear c hdoomed =>
    exact State.jobsMatch_setCtx hs rfl (State.ctx_idle s c) (by simp [hdoomed, CtxState.job])
  | release c => exact State.jobsMatch_setCtx hs rfl (State.ctx_setCtx s c · _) rfl
  | join c l => exact State.jobsMatch_frame hs rfl fun _ => rfl
  | stage c i l bytes => exact State.jobsMatch_frame hs rfl fun _ => rfl
  | store i b bytes => exact State.jobsMatch_frame hs rfl fun _ => rfl
  | jobMoves j k rest hjobs hctx hkind =>
    exact State.jobsMatch_congr hs (by simp [State.jobKeys, hjobs, hctx, hkind]) fun _ => rfl
  | commitDone j rest failed hjobs hkind =>
    refine State.jobsMatch_tail (c := j.ctx) (b := true) hs (by simp [State.jobKeys, hjobs, hkind]) ?_ fun d hd => ?_
    · simp [CtxState.job]
    · simp [hd]
  | recordDone j rest skipped bad hjobs hkind =>
    refine State.jobsMatch_tail (c := j.ctx) (b := false) hs (by simp [State.jobKeys, hjobs, hkind]) ?_ fun d hd => ?_
    · simp [Context.job_afterRecord]
    · simp [hd]
  | windowTick => exact State.jobsMatch_frame hs (by simp) (by simp)
  | windowExpires => exact State.jobsMatch_frame hs (by simp) (by simp)
  | leaveEscalation c => exact State.jobsMatch_frame hs (by simp) (by simp)
  | escalation t w =>
    obtain ⟨hctxs, -, -, -, -, -, hjobs, -⟩ := s.setEscalation_frame t w
    exact State.jobsMatch_frame hs hjobs (State.ctx_congr hctxs)
  | pairing a b => exact State.jobsMatch_frame hs rfl fun _ => rfl
  | caps v => exact State.jobsMatch_frame hs rfl fun _ => rfl
  | drain hrun =>
    exact State.enterDraining_keeps (P := fun t => t.jobsMatch = true)
      (fun u c hopen hu => State.jobsMatch_takeAbort hu hopen _ _ _) (fun _ _ h => h) (fun _ _ h => h) hs
  | running => exact State.jobsMatch_frame hs rfl fun _ => rfl
  | portGone p =>
    obtain ⟨-, -, -, -, -, hjobs, -⟩ := s.portGone_frame p
    refine State.jobsMatch_congr hs (by simp [State.jobKeys, hjobs]) fun d => ?_
    rw [State.ctx_portGone]
    split <;> simp
  | partReset straps =>
    refine (State.jobsMatch_iff _).mpr ⟨by simp [State.jobKeys, State.afterPartReset], fun c b => ?_⟩
    simp [State.jobKeys, State.afterPartReset, State.ctx, Context.reset, CtxState.job]

/-! ### Only the head of the queue works -/

theorem tailWaits_append {l m : List Job} (hl : l.tail.all fun j => j.phase == .waiting)
    (hm : m.all fun j => j.phase == .waiting) : (l ++ m).tail.all fun j => j.phase == .waiting := by
  cases l with
  | nil => exact List.all_eq_true.mpr fun j hj => List.all_eq_true.mp hm j (List.mem_of_mem_tail hj)
  | cons j l => simp_all

theorem State.tailWaits_takeAbort {s : State} (hs : s.tailWaits) (c : CtxId) (code : AbortCode)
    (cause : Option Addr) (party : Option Party) : (s.takeAbort c code cause party).tailWaits := by
  unfold State.tailWaits
  rw [State.jobs_takeAbort]
  exact tailWaits_append hs (by simp [State.abortJobs])

theorem State.tailWaits_congr {s t : State} (hs : s.tailWaits) (h : t.jobs = s.jobs) : t.tailWaits := by
  rw [State.tailWaits, h]
  exact hs

theorem State.tailWaits_rest {s t : State} {j : Job} (hs : s.tailWaits) (h : s.jobs = j :: t.jobs) :
    t.tailWaits := by
  rw [State.tailWaits, h] at hs
  exact List.all_eq_true.mpr fun k hk => List.all_eq_true.mp hs k (List.mem_of_mem_tail hk)

theorem tailWaits_kept (s t : State) (h : State.Effect s t) (hs : s.tailWaits) : t.tailWaits := by
  cases h with
  | port h =>
    obtain ⟨-, -, -, -, -, -, hjobs, -⟩ := h.frame
    exact State.tailWaits_congr hs hjobs
  | abort c code cause party => exact State.tailWaits_takeAbort hs c code cause party
  | commit c p =>
    rw [State.tailWaits, State.jobs_commitStart]
    exact tailWaits_append hs (by simp)
  | jobMoves j k rest hjobs =>
    rw [State.tailWaits, hjobs] at hs
    exact hs
  | commitDone j rest failed hjobs => exact State.tailWaits_rest hs (by simpa using hjobs)
  | recordDone j rest skipped bad hjobs => exact State.tailWaits_rest hs (by simpa using hjobs)
  | drain hrun =>
    exact State.enterDraining_keeps (P := fun t => t.tailWaits = true)
      (fun u c _ hu => State.tailWaits_takeAbort hu c _ _ _) (fun _ _ h => h) (fun _ _ h => h) hs
  | escalation t w =>
    obtain ⟨-, -, -, -, -, -, hjobs, -⟩ := s.setEscalation_frame t w
    exact State.tailWaits_congr hs hjobs
  | portGone p =>
    obtain ⟨-, -, -, -, -, hjobs, -⟩ := s.portGone_frame p
    exact State.tailWaits_congr hs hjobs
  | partReset straps => rfl
  | _ => exact State.tailWaits_congr hs (by simp [State.leaveOpen, State.holdClose])

/-- Settles O54: every effect keeps the jobs matched and the tail waiting. -/
theorem stepKeepsJobsMatched : Obligations.StepKeepsJobsMatched := by
  intro s t hmatch htail hstep
  exact ⟨step_keeps jobsMatch_kept hmatch hstep, step_keeps tailWaits_kept htail hstep⟩

end Sys2Proof.Machine
end

section
/-! The groups (R3, R5, R7, R8, R9, R29, R123): every step keeps contexts, age list, read sets and counts formed. -/

namespace Sys2Proof.Machine

/-! ### The job of a context says its state -/

theorem CtxState.job_eq_some (x : CtxState) (b : Bool) :
    x.job = some b ↔ x = if b then .committing else .aborting := by
  cases x <;> cases b <;> simp [CtxState.job]

/-- The head of a matched queue tells the state of its context (R72). -/
theorem State.state_of_head {s : State} (hs : s.jobsMatch) {j : Job} {rest : List Job} (hjobs : s.jobs = j :: rest) :
    (s.ctx j.ctx).state = if j.isCommit then .committing else .aborting := by
  obtain ⟨-, hmem⟩ := (State.jobsMatch_iff s).mp hs
  rw [← CtxState.job_eq_some, ← hmem]
  simp [State.jobKeys, hjobs]

theorem State.committing_of_head {s : State} (hs : s.jobsMatch) {j : Job} {rest : List Job}
    (hjobs : s.jobs = j :: rest) (hkind : j.isCommit) : (s.ctx j.ctx).state = .committing := by
  simp [State.state_of_head hs hjobs, hkind]

theorem State.aborting_of_head {s : State} (hs : s.jobsMatch) {j : Job} {rest : List Job}
    (hjobs : s.jobs = j :: rest) (hkind : j.isCommit = false) : (s.ctx j.ctx).state = .aborting := by
  simp [State.state_of_head hs hjobs, hkind]

/-! ### The form of one context -/

theorem Context.formed_iff (x : Context) :
    x.formed = true ↔ x.levels.length ≤ 6 ∧ x.depth = x.levels.length ∧ (x.state = .idle ↔ x.depth = 0) ∧
      (x.state = .committing → x.depth = 1) ∧ x.escape = escapeOf x.levels ∧ x.notice = noticeOf x.levels ∧
      x.bounded = boundedOf x.levels ∧ (∀ l ∈ x.levels, l.notice ≤ 2) ∧
      (x.held = none ∨ x.state = .committing ∨ x.state = .aborting) ∧
      (x.state = .idle → x.recAddr = none ∧ x.release = false) := by
  have hbeq : ∀ a b : Bool, (a == b) = true ↔ (a = true ↔ b = true) := by decide
  simp only [Context.formed, Bool.and_eq_true, decide_eq_true_eq, beq_iff_eq, Bool.or_eq_true,
    bne_iff_ne, ne_eq, List.all_eq_true, Option.isNone_iff_eq_none, Bool.not_eq_true', and_assoc, or_assoc,
    imp_iff_not_or, hbeq (x.state == CtxState.idle)]
  rfl

theorem Context.formed_withLevels {x : Context} {ls : List Level} (hx : x.formed) (hopen : x.state = .opened)
    (hlen : 1 ≤ ls.length ∧ ls.length ≤ 6) (hnotice : ∀ l ∈ ls, l.notice ≤ 2) : (x.withLevels ls).formed := by
  obtain ⟨-, -, -, -, -, -, -, -, hheld, -⟩ := x.formed_iff.mp hx
  refine (Context.formed_iff _).mpr ⟨hlen.2, rfl, ?_, ?_, rfl, rfl, rfl, hnotice, ?_, ?_⟩
  · simp only [Context.state_withLevels, hopen, reduceCtorEq, false_iff]
    exact Nat.ne_of_gt hlen.1
  · simp [hopen]
  · simpa [hopen, Context.withLevels] using hheld
  · simp [hopen]

theorem notice_levelOf {arg : Arg} (hlegal : openArgLegal arg) (inner : Bool) : (levelOf arg inner).notice ≤ 2 := by
  have hlt : argNotice arg < 4 := (arg.extractLsb' 2 2).isLt
  have hne : argNotice arg ≠ 3 := by
    simp only [openArgLegal, Bool.and_eq_true, bne_iff_ne] at hlegal
    exact hlegal.1
  simp only [levelOf]
  omega

theorem Context.formed_started {x : Context} (hx : x.formed) (hidle : x.state = .idle) {arg : Arg}
    (hlegal : openArgLegal arg) (rec : Option Addr) : (x.started arg rec).formed := by
  obtain ⟨-, -, -, -, -, -, -, -, hheld, -⟩ := x.formed_iff.mp hx
  refine (Context.formed_iff _).mpr ⟨by simp [Context.started, Context.withLevels], rfl,
    by simp [Context.started, Context.withLevels], by simp [Context.started], rfl, rfl, rfl, ?_, ?_,
    by simp [Context.started]⟩
  · simpa [Context.started, Context.withLevels] using notice_levelOf hlegal false
  · simpa [hidle, Context.started, Context.withLevels] using hheld

theorem Context.formed_toIdle (x : Context) : x.toIdle.formed := by
  refine (Context.formed_iff _).mpr ⟨by simp [Context.toIdle], rfl, by simp [Context.toIdle], ?_, rfl, rfl, rfl, ?_,
    .inl rfl, fun _ => ⟨rfl, rfl⟩⟩ <;> simp [Context.toIdle]

/-- A formed context of a group stays formed when it changes its state to one that is neither IDLE nor COMMITTING, and
fields that its form does not bind there. -/
theorem Context.formed_of_same {x y : Context} (hx : x.formed) (hgroup : x.state ≠ .idle)
    (hlevels : y.levels = x.levels ∧ y.depth = x.depth ∧ y.escape = x.escape ∧ y.notice = x.notice ∧
      y.bounded = x.bounded) (hstate : y.state ≠ .idle) (hdepth : y.state = .committing → x.depth = 1)
    (hheld : y.held = none ∨ y.state = .committing ∨ y.state = .aborting) : y.formed := by
  obtain ⟨hlen, hdep, hidle, -, hesc, hnot, hbnd, hall, -, -⟩ := x.formed_iff.mp hx
  obtain ⟨hl, hd, he, hn, hb⟩ := hlevels
  refine (Context.formed_iff y).mpr ⟨by rwa [hl], by rwa [hl, hd], ?_, by rwa [hd], by rwa [hl, he],
    by rwa [hl, hn], by rwa [hl, hb], by rwa [hl], hheld, fun h => absurd h hstate⟩
  rw [hd, ← hidle]
  simp [hstate, hgroup]

theorem Context.held_of_opened {x : Context} (hx : x.formed) (h : x.state = .opened ∨ x.state = .doomed) :
    x.held = none := by
  obtain ⟨-, -, -, -, -, -, -, -, hheld, -⟩ := x.formed_iff.mp hx
  rcases h with h | h <;> simpa [h] using hheld

theorem Context.formed_afterAbort {x : Context} (hx : x.formed) (hopen : x.state = .opened) (code : AbortCode) :
    (x.afterAbort code).formed := by
  have hheld := Context.held_of_opened hx (.inl hopen)
  unfold Context.afterAbort
  simp only
  split_ifs
  · exact Context.formed_of_same hx (by simp [hopen]) ⟨rfl, rfl, rfl, rfl, rfl⟩ (by simp) (by simp) (.inl hheld)
  · exact Context.formed_toIdle _
  · exact Context.formed_of_same hx (by simp [hopen]) ⟨rfl, rfl, rfl, rfl, rfl⟩ (by simp) (by simp) (.inl hheld)

theorem Context.formed_afterRecord {x : Context} (hx : x.formed) (haborting : x.state = .aborting) :
    x.afterRecord.formed := by
  unfold Context.afterRecord
  split
  · exact Context.formed_toIdle _
  · next h =>
    simp only [Bool.or_eq_true, not_or, Bool.not_eq_true, Option.isSome_eq_false_iff,
      Option.isNone_iff_eq_none] at h
    exact Context.formed_of_same hx (by simp [haborting]) ⟨rfl, rfl, rfl, rfl, rfl⟩ (by simp) (by simp) (.inl h.1)

theorem Context.formed_discardHeld {x : Context} (hx : x.formed) (p : PortId) : (x.discardHeld p).formed := by
  unfold Context.discardHeld
  split
  · obtain ⟨hlen, hdep, hidle, hcom, hesc, hnot, hbnd, hall, -, hfree⟩ := x.formed_iff.mp hx
    exact (Context.formed_iff _).mpr ⟨hlen, hdep, hidle, hcom, hesc, hnot, hbnd, hall, .inl rfl, hfree⟩
  · exact hx

/-! ### Every context stays formed -/

theorem State.contextsFormed_iff (s : State) : s.contextsFormed = true ↔ ∀ c, (s.ctx c).formed = true := by
  simp [State.contextsFormed]

theorem State.contextsFormed_set {s t : State} {c : CtxId} {x : Context} (hs : s.contextsFormed)
    (hctx : ∀ d, t.ctx d = if d = c then x else s.ctx d) (hx : (s.ctx c).formed → x.formed) : t.contextsFormed := by
  rw [State.contextsFormed_iff] at hs ⊢
  intro d
  rw [hctx]
  split
  · exact hx (hs c)
  · exact hs d

theorem State.contextsFormed_frame {s t : State} (hs : s.contextsFormed) (hctx : ∀ d, t.ctx d = s.ctx d) :
    t.contextsFormed := by
  rw [State.contextsFormed_iff] at hs ⊢
  intro d
  rw [hctx]
  exact hs d

theorem State.contextsFormed_takeAbort {s : State} {c : CtxId} (hs : s.contextsFormed)
    (hopen : (s.ctx c).state = .opened) (code : AbortCode) (cause : Option Addr) (party : Option Party) :
    (s.takeAbort c code cause party).contextsFormed :=
  State.contextsFormed_set hs (s.ctx_takeAbort c code cause party) fun hx => Context.formed_afterAbort hx hopen code

theorem contextsFormed_kept (s t : State) (h : State.Effect s t) (hmatch : s.jobsMatch) (hs : s.contextsFormed) :
    t.contextsFormed := by
  have hall := (State.contextsFormed_iff s).mp hs
  cases h with
  | port h => exact State.contextsFormed_frame hs (State.ctx_congr h.frame.1)
  | abort c code cause party hopen => exact State.contextsFormed_takeAbort hs hopen code cause party
  | count c life cycles => exact State.contextsFormed_set hs (State.ctx_setCtx s c · _) fun hx => hx
  | countCycle c cycles => exact State.contextsFormed_set hs (State.ctx_setCtx s c · _) fun hx => hx
  | start c arg rec hidle hrun hlegal =>
    exact State.contextsFormed_set (c := c) (x := (s.ctx c).started arg rec) hs (fun d => by simp)
      fun hx => Context.formed_started hx hidle hlegal rec
  | enter c arg hopen hbounded hdepth hlegal =>
    refine State.contextsFormed_set hs (State.ctx_setCtx s c · _) fun hx => ?_
    obtain ⟨hlen, hdep, -, -, -, -, -, hnotice, -, -⟩ := Context.formed_iff _ |>.mp hx
    have hroom : (s.ctx c).levels.length ≠ 6 := hdep ▸ hdepth
    refine Context.formed_withLevels hx hopen ⟨by simp, by simp only [List.length_cons]; omega⟩ fun l hl => ?_
    rcases List.mem_cons.mp hl with rfl | hl
    · exact notice_levelOf hlegal true
    · exact hnotice l hl
  | leave c hopen hdepth =>
    refine State.contextsFormed_set hs (State.ctx_setCtx s c · _) fun hx => ?_
    obtain ⟨hlen, hdep, -, -, -, -, -, hnotice, -, -⟩ := Context.formed_iff _ |>.mp hx
    exact Context.formed_withLevels hx hopen (by simp only [List.length_tail]; omega) fun l hl =>
      hnotice l (List.mem_of_mem_tail hl)
  | close c hopen =>
    exact State.contextsFormed_set (c := c) (x := (s.ctx c).toIdle) hs (fun d => by simp [State.leaveOpen])
      fun _ => Context.formed_toIdle _
  | commit c p hopen hslots hdepth =>
    refine State.contextsFormed_set hs (State.ctx_commitStart s c p) fun hx => ?_
    have hidle := (Context.formed_iff _ |>.mp hx).2.2.1
    have hpos : (s.ctx c).depth ≠ 0 := fun h => by simp [hidle.mpr h] at hopen
    exact Context.formed_of_same hx (by simp [hopen]) ⟨rfl, rfl, rfl, rfl, rfl⟩ (by simp)
      (fun _ => by omega) (by simp)
  | hold c p haborting =>
    refine State.contextsFormed_set (c := c) (x := { s.ctx c with held := some p }) hs
      (fun d => by simp [State.holdClose]) fun hx => ?_
    exact Context.formed_of_same hx (by simp [haborting]) ⟨rfl, rfl, rfl, rfl, rfl⟩ (by simp [haborting])
      (by simp [haborting]) (by simp [haborting])
  | clear c => exact State.contextsFormed_set hs (State.ctx_idle s c) fun _ => Context.formed_toIdle _
  | release c hstate =>
    refine State.contextsFormed_set hs (State.ctx_setCtx s c · _) fun hx => ?_
    have hheld := (Context.formed_iff _ |>.mp hx).2.2.2.2.2.2.2.2.1
    exact Context.formed_of_same hx (by rcases hstate with h | h <;> simp [h]) ⟨rfl, rfl, rfl, rfl, rfl⟩
      (by rcases hstate with h | h <;> simp [h]) (by rcases hstate with h | h <;> simp [h]) hheld
  | commitDone j rest failed =>
    exact State.contextsFormed_set hs (State.ctx_commitFinish (s.setJobs rest) j.ctx failed) fun _ =>
      Context.formed_toIdle _
  | recordDone j rest skipped bad hjobs hkind =>
    exact State.contextsFormed_set hs (State.ctx_recordFinish (s.setJobs rest) j.ctx skipped bad) fun hx =>
      Context.formed_afterRecord hx (State.aborting_of_head hmatch hjobs hkind)
  | escalation t w => exact State.contextsFormed_frame hs (State.ctx_congr (s.setEscalation_frame t w).1)
  | drain hrun =>
    exact State.enterDraining_keeps (P := fun t => t.contextsFormed = true)
      (fun u c hopen hu => State.contextsFormed_takeAbort hu hopen _ _ _) (fun _ _ h => h) (fun _ _ h => h) hs
  | portGone p =>
    refine (State.contextsFormed_iff _).mpr fun d => ?_
    rw [State.ctx_portGone]
    split
    · exact Context.formed_discardHeld (hall d) p
    · exact hall d
  | partReset straps =>
    refine (State.contextsFormed_iff _).mpr fun c => ?_
    rw [State.ctx, State.afterPartReset, Four.get_same]
    rfl
  | pairing a b => exact State.contextsFormed_frame hs fun _ => rfl
  | caps v => exact State.contextsFormed_frame hs fun _ => rfl
  | _ => exact State.contextsFormed_frame hs (by simp)

/-! ### The age list -/

theorem State.agesMatch_iff (s : State) :
    s.agesMatch = true ↔ s.ages.Nodup ∧ ∀ c, c ∈ s.ages ↔ (s.ctx c).state = .opened := by
  have hbeq : ∀ a b : Bool, (a == b) = true ↔ (a = true ↔ b = true) := by decide
  simp [State.agesMatch, hbeq]

theorem State.agesMatch_congr {s t : State} (hs : s.agesMatch) (hages : t.ages = s.ages)
    (hctx : ∀ c, (t.ctx c).state = .opened ↔ (s.ctx c).state = .opened) : t.agesMatch := by
  rw [State.agesMatch_iff] at hs ⊢
  simpa only [hages, hctx] using hs

/-- A context changed without becoming OPEN or ceasing to be leaves the age list right. -/
theorem State.agesMatch_set {s t : State} {c : CtxId} {x : Context} (hs : s.agesMatch) (hages : t.ages = s.ages)
    (hctx : ∀ d, t.ctx d = if d = c then x else s.ctx d)
    (hx : x.state = .opened ↔ (s.ctx c).state = .opened) : t.agesMatch := by
  refine State.agesMatch_congr hs hages fun d => ?_
  rw [hctx]
  split
  · next hd => rw [hd, hx]
  · rfl

/-- A context that leaves OPEN leaves the age list (R16, R69, R91). -/
theorem State.agesMatch_leaves {s t : State} {c : CtxId} (hs : s.agesMatch)
    (hages : t.ages = s.ages.filter fun d => d ≠ c) (hself : (t.ctx c).state ≠ .opened)
    (hctx : ∀ d, d ≠ c → t.ctx d = s.ctx d) : t.agesMatch := by
  rw [State.agesMatch_iff] at hs ⊢
  rw [hages]
  refine ⟨hs.1.filter _, fun d => ?_⟩
  by_cases hd : d = c
  · subst hd
    simp [hself]
  · simp [hd, hs.2, hctx d hd]

theorem State.agesMatch_takeAbort {s : State} (hs : s.agesMatch) (c : CtxId) (code : AbortCode)
    (cause : Option Addr) (party : Option Party) : (s.takeAbort c code cause party).agesMatch :=
  State.agesMatch_leaves hs (s.ages_takeAbort c code cause party)
    (by simpa using Context.afterAbort_not_opened _ code) fun d hd => by simp [hd]

theorem agesMatch_kept (s t : State) (h : State.Effect s t) (hmatch : s.jobsMatch) (hs : s.agesMatch) :
    t.agesMatch := by
  cases h with
  | port h =>
    obtain ⟨hctxs, hages, -⟩ := h.frame
    exact State.agesMatch_congr hs hages fun c => by rw [State.ctx_congr hctxs]
  | abort c code cause party => exact State.agesMatch_takeAbort hs c code cause party
  | count c life cycles => exact State.agesMatch_set hs rfl (State.ctx_setCtx s c · _) Iff.rfl
  | countCycle c cycles => exact State.agesMatch_set hs rfl (State.ctx_setCtx s c · _) Iff.rfl
  | start c arg rec hidle =>
    rw [State.agesMatch_iff] at hs ⊢
    obtain ⟨hnodup, hmem⟩ := hs
    have hnew : c ∉ s.ages := by simp [hmem, hidle]
    have happend : (s.ages ++ [c]).Nodup :=
      List.nodup_append.mpr ⟨hnodup, by simp, fun a ha b hb h => hnew (by simp_all)⟩
    refine ⟨by simpa using happend, fun d => ?_⟩
    by_cases hd : d = c
    · simp [hd, Context.started]
    · simp [hd, hmem]
  | enter c arg => exact State.agesMatch_set hs rfl (State.ctx_setCtx s c · _) Iff.rfl
  | leave c => exact State.agesMatch_set hs rfl (State.ctx_setCtx s c · _) Iff.rfl
  | close c =>
    refine State.agesMatch_leaves (c := c) hs (by simp [State.leaveOpen]) (by simp [State.leaveOpen]) fun d hd => ?_
    simp [State.leaveOpen, hd]
  | commit c p =>
    refine State.agesMatch_leaves (c := c) hs ?_ (by simp [State.ctx_commitStart]) fun d hd => ?_
    · simp [State.commitStart, State.holdClose, State.leaveOpen]
    · simp [State.ctx_commitStart, hd]
  | hold c p =>
    exact State.agesMatch_set (c := c) (x := { s.ctx c with held := some p }) hs (by simp [State.holdClose])
      (fun d => by simp [State.holdClose]) Iff.rfl
  | clear c hdoomed => exact State.agesMatch_set hs (by simp) (State.ctx_idle s c) (by simp [hdoomed])
  | release c => exact State.agesMatch_set hs rfl (State.ctx_setCtx s c · _) Iff.rfl
  | commitDone j rest failed hjobs hkind =>
    exact State.agesMatch_set hs (by simp) (State.ctx_commitFinish (s.setJobs rest) j.ctx failed)
      (by simp [State.committing_of_head hmatch hjobs hkind])
  | recordDone j rest skipped bad hjobs hkind =>
    refine State.agesMatch_set hs (by simp) (State.ctx_recordFinish (s.setJobs rest) j.ctx skipped bad) ?_
    have hnot : (s.ctx j.ctx).afterRecord.state ≠ .opened := fun h => by
      unfold Context.afterRecord at h
      split at h <;> simp at h
    simp [State.aborting_of_head hmatch hjobs hkind, hnot]
  | escalation t w =>
    obtain ⟨hctxs, hages, -⟩ := s.setEscalation_frame t w
    exact State.agesMatch_congr hs hages fun c => by rw [State.ctx_congr hctxs]
  | drain hrun =>
    exact State.enterDraining_keeps (P := fun t => t.agesMatch = true)
      (fun u c _ hu => State.agesMatch_takeAbort hu c _ _ _) (fun _ _ h => h) (fun _ _ h => h) hs
  | portGone p =>
    obtain ⟨hages, -⟩ := s.portGone_frame p
    refine State.agesMatch_congr hs hages fun d => ?_
    rw [State.ctx_portGone]
    split <;> simp
  | partReset straps =>
    exact (State.agesMatch_iff _).mpr
      ⟨by simp [State.afterPartReset], by simp [State.ctx, State.afterPartReset, Context.reset]⟩
  | pairing a b => exact State.agesMatch_congr hs rfl fun _ => Iff.rfl
  | caps v => exact State.agesMatch_congr hs rfl fun _ => Iff.rfl
  | _ => exact State.agesMatch_congr hs (by simp) (by simp)

/-! ### Read sets -/

theorem State.readsBounded_iff (s : State) :
    s.readsBounded = true ↔ ∀ c, (s.reads c).length ≤ 24 ∧ (s.reads c).Nodup ∧
      (s.reads c = [] ∨ (s.ctx c).state = .opened) := by
  simp [State.readsBounded, and_assoc]
  rfl

/-- Read sets that stand or are emptied stay bounded, as long as no context with a read set leaves OPEN. -/
theorem State.readsBounded_of {s t : State} (hs : s.readsBounded)
    (h : ∀ c, t.reads c = [] ∨ t.reads c = s.reads c ∧
      ((s.ctx c).state = .opened → (t.ctx c).state = .opened)) : t.readsBounded := by
  rw [State.readsBounded_iff] at hs ⊢
  intro c
  obtain ⟨hlen, hnodup, hopen⟩ := hs c
  rcases h c with h | ⟨h, hkeep⟩
  · simp [h]
  · rw [h]
    exact ⟨hlen, hnodup, hopen.imp_right hkeep⟩

/-- A context of which OPEN is not taken leaves the read sets bounded. -/
theorem State.readsBounded_set {s t : State} {c : CtxId} {x : Context} (hs : s.readsBounded)
    (hreads : t.readSets = s.readSets) (hctx : ∀ d, t.ctx d = if d = c then x else s.ctx d)
    (hx : (s.ctx c).state = .opened → x.state = .opened) : t.readsBounded := by
  refine State.readsBounded_of hs fun d => .inr ⟨by simp [State.reads, hreads], fun hd => ?_⟩
  rw [hctx]
  split
  · next h => exact hx (h ▸ hd)
  · exact hd

theorem State.readsBounded_takeAbort {s : State} (hs : s.readsBounded) (c : CtxId) (code : AbortCode)
    (cause : Option Addr) (party : Option Party) : (s.takeAbort c code cause party).readsBounded := by
  refine State.readsBounded_of hs fun d => ?_
  by_cases hd : d = c <;> simp [hd]

theorem readsBounded_kept (s t : State) (h : State.Effect s t) (hmatch : s.jobsMatch) (hs : s.readsBounded) :
    t.readsBounded := by
  cases h with
  | port h =>
    obtain ⟨hctxs, -, hreads, -⟩ := h.frame
    exact State.readsBounded_of hs fun c => .inr ⟨by simp [State.reads, hreads], fun hc => by
      rwa [State.ctx_congr hctxs]⟩
  | abort c code cause party => exact State.readsBounded_takeAbort hs c code cause party
  | count c life cycles => exact State.readsBounded_set hs rfl (State.ctx_setCtx s c · _) fun h => h
  | countCycle c cycles => exact State.readsBounded_set hs rfl (State.ctx_setCtx s c · _) fun h => h
  | start c arg rec hidle =>
    exact State.readsBounded_set (c := c) (x := (s.ctx c).started arg rec) hs (by simp) (fun d => by simp)
      fun _ => rfl
  | enter c arg => exact State.readsBounded_set hs rfl (State.ctx_setCtx s c · _) fun h => h
  | leave c => exact State.readsBounded_set hs rfl (State.ctx_setCtx s c · _) fun h => h
  | close c =>
    refine State.readsBounded_of hs fun d => ?_
    by_cases hd : d = c <;> simp [hd, State.leaveOpen]
  | commit c p =>
    refine State.readsBounded_of hs fun d => ?_
    by_cases hd : d = c
    · simp [hd, State.commitStart, State.holdClose, State.leaveOpen]
    · refine .inr ⟨by simp [hd, State.commitStart, State.holdClose, State.leaveOpen], fun h => ?_⟩
      rwa [State.ctx_commitStart, if_neg hd]
  | hold c p =>
    exact State.readsBounded_set (c := c) (x := { s.ctx c with held := some p }) hs (by simp [State.holdClose])
      (fun d => by simp [State.holdClose]) fun h => h
  | clear c hdoomed =>
    exact State.readsBounded_set hs (by simp) (State.ctx_idle s c) (by simp [hdoomed])
  | release c => exact State.readsBounded_set hs rfl (State.ctx_setCtx s c · _) fun h => h
  | join c l hopen hnew hroom =>
    rw [State.readsBounded_iff] at hs ⊢
    intro d
    rw [State.reads_setReads]
    split
    · next hd =>
      subst hd
      refine ⟨by simpa [Config.readSetLimit] using hroom, ?_, .inr hopen⟩
      exact List.nodup_append.mpr ⟨(hs d).2.1, by simp, fun a ha b hb h => hnew (by simp_all)⟩
    · exact hs d
  | commitDone j rest failed hjobs hkind =>
    exact State.readsBounded_set hs (by simp) (State.ctx_commitFinish (s.setJobs rest) j.ctx failed)
      (by simp [State.committing_of_head hmatch hjobs hkind])
  | recordDone j rest skipped bad hjobs hkind =>
    exact State.readsBounded_set hs (by simp) (State.ctx_recordFinish (s.setJobs rest) j.ctx skipped bad)
      (by simp [State.aborting_of_head hmatch hjobs hkind])
  | escalation t w =>
    obtain ⟨hctxs, -, hreads, -⟩ := s.setEscalation_frame t w
    exact State.readsBounded_of hs fun c => .inr ⟨by simp [State.reads, hreads], fun hc => by
      rwa [State.ctx_congr hctxs]⟩
  | drain hrun =>
    exact State.enterDraining_keeps (P := fun t => t.readsBounded = true)
      (fun u c _ hu => State.readsBounded_takeAbort hu c _ _ _) (fun _ _ h => h) (fun _ _ h => h) hs
  | portGone p =>
    obtain ⟨-, hreads, -⟩ := s.portGone_frame p
    refine State.readsBounded_of hs fun d => .inr ⟨by simp [State.reads, hreads], fun hd => ?_⟩
    rw [State.ctx_portGone]
    split <;> simpa
  | partReset straps => exact State.readsBounded_of hs fun d => .inl (Four.get_same _ d)
  | pairing a b => exact State.readsBounded_of hs fun _ => .inr ⟨rfl, fun h => h⟩
  | caps v => exact State.readsBounded_of hs fun _ => .inr ⟨rfl, fun h => h⟩
  | _ => exact State.readsBounded_of hs fun c => .inr (by simp)

/-! ### The counts of a group -/

theorem State.countsBounded_iff (s : State) :
    s.countsBounded = true ↔ ∀ c, (s.ctx c).lifetime ≤ 65535 ∧ (s.ctx c).cycles ≤ 65535 := by
  simp [State.countsBounded]
  rfl

theorem State.countsBounded_set {s t : State} {c : CtxId} {x : Context} (hs : s.countsBounded)
    (hctx : ∀ d, t.ctx d = if d = c then x else s.ctx d)
    (hx : (s.ctx c).lifetime ≤ 65535 ∧ (s.ctx c).cycles ≤ 65535 → x.lifetime ≤ 65535 ∧ x.cycles ≤ 65535) :
    t.countsBounded := by
  rw [State.countsBounded_iff] at hs ⊢
  intro d
  rw [hctx]
  split
  · exact hx (hs c)
  · exact hs d

theorem State.countsBounded_frame {s t : State} (hs : s.countsBounded) (hctx : ∀ d, t.ctx d = s.ctx d) :
    t.countsBounded := by
  rw [State.countsBounded_iff] at hs ⊢
  intro d
  rw [hctx]
  exact hs d

theorem Context.counts_afterAbort (x : Context) (code : AbortCode) :
    (x.afterAbort code).lifetime = x.lifetime ∧ (x.afterAbort code).cycles = x.cycles := by
  unfold Context.afterAbort
  simp only
  split_ifs <;> exact ⟨rfl, rfl⟩

theorem State.countsBounded_takeAbort {s : State} (hs : s.countsBounded) (c : CtxId) (code : AbortCode)
    (cause : Option Addr) (party : Option Party) : (s.takeAbort c code cause party).countsBounded :=
  State.countsBounded_set hs (s.ctx_takeAbort c code cause party) fun hx => by
    simpa [Context.counts_afterAbort] using hx

theorem countsBounded_kept (s t : State) (h : State.Effect s t) (hs : s.countsBounded) : t.countsBounded := by
  cases h with
  | port h => exact State.countsBounded_frame hs (State.ctx_congr h.frame.1)
  | abort c code cause party => exact State.countsBounded_takeAbort hs c code cause party
  | count c life cycles hlife hcycles =>
    refine State.countsBounded_set hs (State.ctx_setCtx s c · _) fun hx => ⟨hlife, ?_⟩
    rcases hcycles with h | h
    · exact h
    · exact h ▸ hx.2
  | countCycle c cycles hcycles =>
    exact State.countsBounded_set hs (State.ctx_setCtx s c · _) fun hx => ⟨hx.1, hcycles⟩
  | start c arg rec =>
    exact State.countsBounded_set (c := c) (x := (s.ctx c).started arg rec) hs (fun d => by simp)
      fun _ => by simp [Context.started]
  | enter c arg => exact State.countsBounded_set hs (State.ctx_setCtx s c · _) fun h => h
  | leave c => exact State.countsBounded_set hs (State.ctx_setCtx s c · _) fun h => h
  | close c =>
    exact State.countsBounded_set (c := c) (x := (s.ctx c).toIdle) hs (fun d => by simp [State.leaveOpen])
      fun h => h
  | commit c p => exact State.countsBounded_set hs (State.ctx_commitStart s c p) fun h => h
  | hold c p =>
    exact State.countsBounded_set (c := c) (x := { s.ctx c with held := some p }) hs
      (fun d => by simp [State.holdClose]) fun h => h
  | clear c => exact State.countsBounded_set hs (State.ctx_idle s c) fun h => h
  | release c => exact State.countsBounded_set hs (State.ctx_setCtx s c · _) fun h => h
  | commitDone j rest failed =>
    exact State.countsBounded_set hs (State.ctx_commitFinish (s.setJobs rest) j.ctx failed) fun h => h
  | recordDone j rest skipped bad =>
    refine State.countsBounded_set hs (State.ctx_recordFinish (s.setJobs rest) j.ctx skipped bad) fun h => ?_
    unfold Context.afterRecord
    split <;> exact h
  | escalation t w => exact State.countsBounded_frame hs (State.ctx_congr (s.setEscalation_frame t w).1)
  | drain hrun =>
    exact State.enterDraining_keeps (P := fun t => t.countsBounded = true)
      (fun u c _ hu => State.countsBounded_takeAbort hu c _ _ _) (fun _ _ h => h) (fun _ _ h => h) hs
  | portGone p =>
    rw [State.countsBounded_iff] at hs ⊢
    intro d
    rw [State.ctx_portGone]
    unfold Context.discardHeld
    split
    · split <;> exact hs d
    · exact hs d
  | partReset straps =>
    exact (State.countsBounded_iff _).mpr fun c => by simp [State.ctx, State.afterPartReset, Context.reset]
  | pairing a b => exact State.countsBounded_frame hs fun _ => rfl
  | caps v => exact State.countsBounded_frame hs fun _ => rfl
  | _ => exact State.countsBounded_frame hs (by simp)

/-- Settles O55: every effect keeps each of the four, the job queue being matched. -/
theorem stepKeepsGroupsFormed : Obligations.StepKeepsGroupsFormed := by
  intro s t hmatch hformed hages hreads hcounts hstep
  refine (step_keeps (P := fun u => u.jobsMatch = true ∧ u.contextsFormed = true ∧ u.agesMatch = true ∧
    u.readsBounded = true ∧ u.countsBounded = true) ?_ ⟨hmatch, hformed, hages, hreads, hcounts⟩ hstep).2
  rintro u v h ⟨hm, hf, ha, hr, hc⟩
  exact ⟨jobsMatch_kept u v h hm, contextsFormed_kept u v h hm hf, agesMatch_kept u v h hm ha,
    readsBounded_kept u v h hm hr, countsBounded_kept u v h hc⟩

end Sys2Proof.Machine
end

section
/-! Contention escalation (R130, R135, R136): every step keeps queue, token, window timer and counters together. -/

namespace Sys2Proof.Machine

/-! ### What stands together -/

/-- Queue, token, timer and counters stand together, but that a FREE token may not have been granted yet. -/
structure State.GrantPending (s : State) : Prop where
  nodup : s.prioQueue.Nodup
  owner : ∀ c, s.ownsToken c → c ∉ s.prioQueue
  held : ∀ c, s.token = .held c → (s.ctx c).state = .opened
  counters : ∀ c, s.counters.get c ≤ 15
  timer : s.token = .free → s.window = none
  off : s.escalationOn = false → s.prioQueue = [] ∧ s.token = .free
  window : ∀ n, s.window = some n → 1 ≤ n ∧ n ≤ 254

theorem State.escalationFormed_iff (s : State) :
    s.escalationFormed = true ↔ s.GrantPending ∧ (s.token = .free → s.prioQueue = []) := by
  have hlimit : Config.counterLimit = 15 := rfl
  have hall : s.window.all (fun n => decide (1 ≤ n ∧ n ≤ 254)) = true ↔
      ∀ n, s.window = some n → 1 ≤ n ∧ n ≤ 254 := by
    cases s.window <;> simp
  have h : s.escalationFormed = true ↔ s.prioQueue.Nodup ∧
      (∀ c, (s.ownsToken c = true → c ∉ s.prioQueue) ∧ (s.token = .held c → (s.ctx c).state = .opened) ∧
        s.counters.get c ≤ 15) ∧
      (s.token = .free → s.prioQueue = [] ∧ s.window = none) ∧
      (s.escalationOn = false → s.prioQueue = [] ∧ s.token = .free) ∧
      ∀ n, s.window = some n → 1 ≤ n ∧ n ≤ 254 := by
    simp only [State.escalationFormed, Bool.and_eq_true, decide_eq_true_eq, List.all_eq_true, mem_four, forall_const,
      Bool.or_eq_true, Bool.not_eq_true', bne_iff_ne, ne_eq, beq_iff_eq, List.contains_eq_mem, decide_eq_false_iff_not,
      List.isEmpty_iff, Option.isNone_iff_eq_none, imp_iff_not_or, Bool.not_eq_true, Bool.not_eq_false, and_assoc,
      hall, hlimit]
  rw [h]
  constructor
  · rintro ⟨hnodup, hctx, hfree, hoff, hwindow⟩
    exact ⟨⟨hnodup, fun c => (hctx c).1, fun c => (hctx c).2.1, fun c => (hctx c).2.2, fun h => (hfree h).2, hoff,
      hwindow⟩, fun h => (hfree h).1⟩
  · rintro ⟨⟨hnodup, howner, hheld, hcounters, htimer, hoff, hwindow⟩, hfree⟩
    exact ⟨hnodup, fun c => ⟨howner c, hheld c, hcounters c⟩, fun h => ⟨hfree h, htimer h⟩, hoff, hwindow⟩

/-- The form depends on the contention fields, and on the OPEN state of a HELD token's owner. -/
theorem State.escalationFormed_congr {s t : State} (hs : s.escalationFormed)
    (hqueue : t.prioQueue = s.prioQueue) (htoken : t.token = s.token) (hwindow : t.window = s.window)
    (hcounters : t.counters = s.counters) (hon : t.escalationOn = s.escalationOn)
    (hctx : ∀ c, s.token = .held c → (s.ctx c).state = .opened → (t.ctx c).state = .opened) :
    t.escalationFormed := by
  rw [State.escalationFormed_iff] at hs ⊢
  obtain ⟨⟨hnodup, howner, hheld, hcount, htimer, hoff, hwin⟩, hfree⟩ := hs
  have howns : ∀ c, t.ownsToken c = s.ownsToken c := fun c => by simp [State.ownsToken, htoken]
  refine ⟨⟨?_, fun c => ?_, fun c h => ?_, ?_, ?_, ?_, ?_⟩, ?_⟩
  · rwa [hqueue]
  · rw [howns, hqueue]
    exact howner c
  · rw [htoken] at h
    exact hctx c h (hheld c h)
  · rwa [hcounters]
  · rwa [htoken, hwindow]
  · rwa [hon, hqueue, htoken]
  · rwa [hwindow]
  · rwa [htoken, hqueue]

/-! ### The operations of the Contention Unit -/

theorem State.GrantPending.formed {s : State} (hs : s.GrantPending) (h : s.token = .free → s.prioQueue = []) :
    s.escalationFormed := (State.escalationFormed_iff s).mpr ⟨hs, h⟩

theorem State.escalationFormed.pending {s : State} (hs : s.escalationFormed) : s.GrantPending :=
  ((State.escalationFormed_iff s).mp hs).1

theorem State.escalationOn_iff (s : State) :
    s.escalationOn = true ↔ s.threshold ≠ 0 ∧ s.windowLen ≠ 0 := by
  simp [State.escalationOn]

/-- A timer set from W runs with 1 to 254 ticks while escalation is on, or is unlimited (R135). -/
theorem State.windowFromW_bounds {s : State} (hon : s.escalationOn) {n : Nat} (h : s.windowFromW = some n) :
    1 ≤ n ∧ n ≤ 254 := by
  obtain ⟨-, hw⟩ := (State.escalationOn_iff s).mp hon
  unfold State.windowFromW at h
  split at h
  · cases h
  · next h255 =>
    cases h
    have hlt := s.windowLen.isLt
    have h0 : s.windowLen.toNat ≠ 0 := fun h0 => hw (BitVec.eq_of_toNat_eq (by simpa using h0))
    have h1 : s.windowLen.toNat ≠ 255 := fun h1 => h255 (BitVec.eq_of_toNat_eq (by simpa using h1))
    omega

/-- A grant of the token leaves nothing pending (R135). -/
theorem State.GrantPending.grantToken {s : State} (hs : s.GrantPending) : s.grantToken.escalationFormed := by
  cases hq : s.prioQueue with
  | nil =>
    have hsame : s.grantToken = s := by
      unfold State.grantToken
      simp [hq]
    rw [hsame]
    exact hs.formed fun _ => hq
  | cons c rest =>
    by_cases ht : s.token = .free
    · have hon : s.escalationOn := by
        by_contra hoff
        simp [(hs.off (by simpa using hoff)).1] at hq
      rw [(State.grantToken_free ht).2 c rest hq hon]
      have hnodup := hs.nodup
      rw [hq, List.nodup_cons] at hnodup
      refine State.GrantPending.formed ⟨hnodup.2, fun d hd => ?_, fun d hd => ?_, hs.counters, fun h => ?_, fun h => ?_,
        fun n hn => State.windowFromW_bounds hon hn⟩ fun h => ?_
      · have hdc : d = c := by simpa [State.ownsToken, eq_comm] using hd
        rw [hdc]
        exact hnodup.1
      · simp at hd
      · simp at h
      · exact absurd hon (by simpa [State.escalationOn] using h)
      · simp at h
    · have hsame : s.grantToken = s := by
        unfold State.grantToken
        split
        · next h _ => exact absurd h ht
        · rfl
      rw [hsame]
      exact hs.formed fun h => absurd h ht

theorem State.GrantPending.freeToken {s : State} (hs : s.GrantPending) : s.freeToken.GrantPending where
  nodup := hs.nodup
  owner c h := by simp [State.ownsToken, State.freeToken] at h
  held c h := by simp [State.freeToken] at h
  counters := hs.counters
  timer _ := rfl
  off h := ⟨(hs.off (by simpa using h)).1, rfl⟩
  window n h := by simp [State.freeToken] at h

theorem State.GrantPending.setCounter {s : State} (hs : s.GrantPending) (c : CtxId) {n : Nat} (hn : n ≤ 15) :
    (s.setCounter c n).GrantPending where
  nodup := hs.nodup
  owner := hs.owner
  held := hs.held
  counters d := by
    rw [State.setCounter, Four.get_set]
    split
    · exact hn
    · exact hs.counters d
  timer := hs.timer
  off := hs.off
  window := hs.window

theorem State.GrantPending.enqueue {s : State} (hs : s.GrantPending) {c : CtxId} (hon : s.escalationOn)
    (howns : s.ownsToken c = false) (hnew : c ∉ s.prioQueue) : (s.setQueue (s.prioQueue ++ [c])).GrantPending where
  nodup := List.nodup_append.mpr ⟨hs.nodup, by simp, fun a ha b hb h => hnew (by simp_all)⟩
  owner d hd := by
    have hd' : s.ownsToken d := hd
    have hne : d ≠ c := fun h => by simp [h, howns] at hd'
    simpa [hne] using hs.owner d hd'
  held := hs.held
  counters := hs.counters
  timer := hs.timer
  off h := absurd hon (by simpa using h)
  window := hs.window

theorem State.token_grantToken (s : State) :
    s.grantToken.token = s.token ∨ ∃ c, s.token = .free ∧ s.grantToken.token = .reserved c := by
  unfold State.grantToken
  split
  · next c rest h _ =>
    split
    · exact .inr ⟨c, h, rfl⟩
    · exact .inl rfl
  · exact .inl rfl

theorem State.token_grantToken_ne_held {s : State} {c : CtxId} (h : s.token ≠ .held c) :
    s.grantToken.token ≠ .held c := by
  obtain ht | ⟨d, -, ht⟩ := s.token_grantToken <;> rw [ht]
  · exact h
  · simp

/-- The token is freed when the context holds it (R133, R134). -/
def State.freeIfHeld (s : State) (c : CtxId) : State := if s.token = .held c then s.freeToken else s

theorem State.GrantPending.freeIfHeld {s : State} (hs : s.GrantPending) (c : CtxId) :
    (s.freeIfHeld c).GrantPending := by
  unfold State.freeIfHeld
  split
  · exact hs.freeToken
  · exact hs

theorem State.token_freeIfHeld (s : State) (c : CtxId) : (s.freeIfHeld c).token ≠ .held c := by
  unfold State.freeIfHeld
  split
  · simp [State.freeToken]
  · assumption

theorem State.GrantPending.countAbort {s : State} (hs : s.GrantPending) (c : CtxId) (b : Bool) :
    (s.countAbort c b).GrantPending := by
  unfold State.countAbort
  split
  · exact hs.setCounter c (Nat.min_le_left _ _)
  · exact hs

/-- An abort notice in its four steps: count, end of HELD, queueing, grant (R133). -/
theorem State.abortNotice_eq (s : State) (c : CtxId) (code : AbortCode) (bounded : Bool) :
    s.abortNotice c code bounded =
      (let t := (s.countAbort c (bounded && code.counts)).freeIfHeld c
      (if (bounded && code.counts) && t.escalationOn && decide (t.threshold.toNat ≤ t.counters.get c) &&
        !t.ownsToken c && !t.prioQueue.contains c then t.setQueue (t.prioQueue ++ [c]) else t).grantToken) := rfl

theorem State.GrantPending.abortNotice {s : State} (hs : s.GrantPending) (c : CtxId) (code : AbortCode)
    (bounded : Bool) :
    (s.abortNotice c code bounded).escalationFormed ∧ (s.abortNotice c code bounded).token ≠ .held c := by
  rw [State.abortNotice_eq]
  have ht := (hs.countAbort c (bounded && code.counts)).freeIfHeld c
  have hne := State.token_freeIfHeld (s.countAbort c (bounded && code.counts)) c
  generalize (s.countAbort c (bounded && code.counts)).freeIfHeld c = t at ht hne
  simp only
  split
  · next hqueues =>
    simp only [Bool.and_eq_true, Bool.not_eq_true', List.contains_eq_mem, decide_eq_false_iff_not] at hqueues
    obtain ⟨⟨⟨⟨_, hon⟩, _⟩, howns⟩, hnew⟩ := hqueues
    exact ⟨(ht.enqueue hon howns hnew).grantToken, State.token_grantToken_ne_held hne⟩
  · exact ⟨ht.grantToken, State.token_grantToken_ne_held hne⟩

theorem State.escalationFormed_commitNotice {s : State} (hs : s.escalationFormed) (c : CtxId) :
    (s.commitNotice c).escalationFormed ∧ (s.commitNotice c).token ≠ .held c := by
  obtain ⟨hpending, hfree⟩ := (State.escalationFormed_iff s).mp hs
  have hcounter := hpending.setCounter c (Nat.zero_le 15)
  unfold State.commitNotice
  simp only
  split
  · exact ⟨hcounter.freeToken.grantToken, State.token_grantToken_ne_held (by simp [State.freeToken])⟩
  · exact ⟨hcounter.formed hfree, by assumption⟩

theorem State.escalationFormed_windowExpires {s : State} (hs : s.escalationFormed) :
    s.windowExpires.escalationFormed := (State.escalationFormed.pending hs).freeToken.grantToken

theorem State.escalationFormed_windowTick {s : State} (hs : s.escalationFormed) : s.windowTick.escalationFormed := by
  by_cases hfree : s.token = .free
  · rwa [State.windowTick_of_free hfree]
  cases hw : s.window with
  | none => rwa [State.windowTick_of_unlimited hw]
  | some n =>
    rw [State.windowTick_of_running hfree hw]
    split
    · exact State.escalationFormed_windowExpires hs
    · next hn =>
      obtain ⟨hpending, -⟩ := (State.escalationFormed_iff s).mp hs
      obtain ⟨-, hle⟩ := hpending.window n hw
      refine State.GrantPending.formed ⟨hpending.nodup, hpending.owner, hpending.held, hpending.counters,
        fun h => absurd h hfree, hpending.off, fun m hm => ?_⟩ fun h => absurd h hfree
      have hm' : n - 1 = m := by simpa using hm
      omega

theorem State.escalationFormed_leaveEscalation {s : State} (hs : s.escalationFormed) (c : CtxId) :
    (s.leaveEscalation c).escalationFormed := by
  obtain ⟨hpending, hfree⟩ := (State.escalationFormed_iff s).mp hs
  have hleft : ((s.setCounter c 0).setQueue (s.prioQueue.filter fun d => d ≠ c)).GrantPending :=
    { hpending.setCounter c (Nat.zero_le 15) with
      nodup := hpending.nodup.filter _
      owner := fun d hd hmem => hpending.owner d hd (List.mem_filter.mp hmem).1
      off := fun h => by
        obtain ⟨hq, ht⟩ := hpending.off (by simpa using h)
        exact ⟨by simp [hq], by simpa using ht⟩ }
  unfold State.leaveEscalation
  simp only
  split
  · exact hleft.freeToken.grantToken
  · refine hleft.formed fun h => ?_
    have hq := hfree (by simpa using h)
    simp [hq]

/-- With every context IDLE no token is HELD (R130, R174). -/
theorem State.escalationFormed_setEscalation {s : State} (hs : s.escalationFormed) (hidle : s.allIdle)
    (t : BitVec 4) (w : BitVec 8) : (s.setEscalation t w).escalationFormed := by
  obtain ⟨hpending, hfree⟩ := (State.escalationFormed_iff s).mp hs
  have hnone : ∀ c, s.token ≠ .held c := fun c h => by simpa [hidle c] using hpending.held c h
  unfold State.setEscalation
  simp only
  split
  · next hon =>
    exact State.GrantPending.formed ⟨hpending.nodup, hpending.owner, hpending.held, hpending.counters, hpending.timer,
      fun h => absurd hon (by simpa using h), hpending.window⟩ hfree
  · split
    · exact State.GrantPending.formed ⟨List.nodup_nil, by simp, fun c h => by simp [State.freeToken] at h,
        hpending.counters, fun _ => rfl, fun _ => ⟨rfl, rfl⟩, fun n h => by simp [State.freeToken] at h⟩ fun _ => rfl
    · next hreserved =>
      have htoken : s.token = .free := by
        cases h : s.token with
        | free => rfl
        | reserved c => exact absurd h (hreserved c)
        | held c => exact absurd h (hnone c)
      exact State.GrantPending.formed ⟨List.nodup_nil, by simp, hpending.held, hpending.counters, hpending.timer,
        fun _ => ⟨rfl, htoken⟩, hpending.window⟩ fun _ => rfl

/-! ### Every effect keeps them together -/

theorem State.escalationFormed_takeAbort {s : State} (hs : s.escalationFormed) (c : CtxId) (code : AbortCode)
    (cause : Option Addr) (party : Option Party) : (s.takeAbort c code cause party).escalationFormed := by
  obtain ⟨hnotice, hne⟩ := (State.escalationFormed.pending hs).abortNotice c code (s.ctx c).bounded
  obtain ⟨htoken, hqueue, hwindow, hcounters⟩ := s.contention_takeAbort c code cause party
  refine State.escalationFormed_congr hnotice hqueue htoken hwindow hcounters (by simp) fun d hd hopen => ?_
  have hdc : d ≠ c := fun h => hne (h ▸ hd)
  simpa [hdc] using hopen

/-- A context that does not leave OPEN leaves token and queue as they stand. -/
theorem State.escalationFormed_frame {s t : State} (hs : s.escalationFormed)
    (hqueue : t.prioQueue = s.prioQueue) (htoken : t.token = s.token) (hwindow : t.window = s.window)
    (hcounters : t.counters = s.counters) (hon : t.escalationOn = s.escalationOn) {c : CtxId} {x : Context}
    (hctx : ∀ d, t.ctx d = if d = c then x else s.ctx d)
    (hx : (s.ctx c).state = .opened → x.state = .opened) : t.escalationFormed := by
  refine State.escalationFormed_congr hs hqueue htoken hwindow hcounters hon fun d _ hopen => ?_
  rw [hctx]
  split
  · next h => exact hx (h ▸ hopen)
  · exact hopen

/-- The end of OPEN at an outermost CLOSE takes a HELD token from the context (R134). -/
theorem State.escalationFormed_leaveOpen {s : State} (hs : s.escalationFormed) (c : CtxId) :
    (s.leaveOpen c).escalationFormed ∧ (s.leaveOpen c).token ≠ .held c :=
  State.escalationFormed_commitNotice (s := (s.setReads c []).setAges (s.ages.filter fun d => d ≠ c)) hs c

/-- A RESERVED token of a bounded group's context becomes HELD as the group starts (R136). -/
theorem State.escalationFormed_openNotice {s : State} (hs : s.escalationFormed) {c : CtxId}
    (hopen : (s.ctx c).state = .opened) (bounded : Bool) : (s.openNotice c bounded).escalationFormed := by
  unfold State.openNotice
  split
  · next h =>
    simp only [Bool.and_eq_true, decide_eq_true_eq] at h
    obtain ⟨hpending, -⟩ := (State.escalationFormed_iff s).mp hs
    have hon : s.escalationOn := by
      by_contra hoff
      simp [(hpending.off (by simpa using hoff)).2] at h
    refine State.GrantPending.formed ⟨hpending.nodup, fun d hd => ?_, fun d hd => ?_, hpending.counters, fun h => ?_,
      fun h => ?_, fun n hn => State.windowFromW_bounds hon hn⟩ fun h => ?_
    · have hdc : d = c := by simpa [State.ownsToken, eq_comm] using hd
      exact hpending.owner d (by simp [State.ownsToken, h.1, hdc])
    · have hdc : c = d := by simpa using hd
      exact hdc ▸ hopen
    · simp at h
    · exact absurd hon (by simpa using h)
    · simp at h
  · exact hs

theorem escalationFormed_kept (s t : State) (h : State.Effect s t) (hmatch : s.jobsMatch)
    (hs : s.escalationFormed) : t.escalationFormed := by
  cases h with
  | port h =>
    obtain ⟨hctxs, -, -, -, -, -, -, hcounters, hqueue, htoken, hwindow, hthreshold, hlen, -⟩ := h.frame
    exact State.escalationFormed_congr hs hqueue htoken hwindow hcounters
      (by simp [State.escalationOn, hthreshold, hlen]) fun c _ hopen => by rwa [State.ctx_congr hctxs]
  | abort c code cause party => exact State.escalationFormed_takeAbort hs c code cause party
  | start c arg rec hidle =>
    refine State.escalationFormed_openNotice ?_ (by simp [Context.started]) _
    exact State.escalationFormed_frame hs rfl rfl rfl rfl rfl (State.ctx_setCtx s c · _) fun _ => rfl
  | close c =>
    obtain ⟨hleft, hne⟩ := State.escalationFormed_leaveOpen hs c
    refine State.escalationFormed_congr hleft (by simp) (by simp) (by simp) (by simp) (by simp) fun d hd hopen => ?_
    have hdc : d ≠ c := fun h => hne (h ▸ hd)
    simpa [hdc] using hopen
  | commit c p =>
    obtain ⟨hleft, hne⟩ := State.escalationFormed_leaveOpen hs c
    refine State.escalationFormed_congr hleft (by simp [State.commitStart, State.holdClose])
      (by simp [State.commitStart, State.holdClose]) (by simp [State.commitStart, State.holdClose])
      (by simp [State.commitStart, State.holdClose]) (by simp [State.commitStart, State.holdClose]) fun d hd hopen => ?_
    have hdc : d ≠ c := fun h => hne (h ▸ hd)
    simpa [State.commitStart, State.holdClose, hdc] using hopen
  | hold c p =>
    exact State.escalationFormed_frame (c := c) (x := { s.ctx c with held := some p }) hs rfl rfl rfl rfl rfl
      (fun d => by simp [State.holdClose]) fun h => h
  | clear c hdoomed =>
    exact State.escalationFormed_frame hs rfl rfl rfl rfl rfl (State.ctx_idle s c) (by simp [hdoomed])
  | count c life cycles =>
    exact State.escalationFormed_frame hs rfl rfl rfl rfl rfl (State.ctx_setCtx s c · _) fun h => h
  | countCycle c cycles =>
    exact State.escalationFormed_frame hs rfl rfl rfl rfl rfl (State.ctx_setCtx s c · _) fun h => h
  | enter c arg => exact State.escalationFormed_frame hs rfl rfl rfl rfl rfl (State.ctx_setCtx s c · _) fun h => h
  | leave c => exact State.escalationFormed_frame hs rfl rfl rfl rfl rfl (State.ctx_setCtx s c · _) fun h => h
  | release c => exact State.escalationFormed_frame hs rfl rfl rfl rfl rfl (State.ctx_setCtx s c · _) fun h => h
  | commitDone j rest failed hjobs hkind =>
    exact State.escalationFormed_frame hs (by simp) (by simp) (by simp) (by simp) (by simp [State.escalationOn])
      (State.ctx_commitFinish (s.setJobs rest) j.ctx failed)
      (by simp [State.committing_of_head hmatch hjobs hkind])
  | recordDone j rest skipped bad hjobs hkind =>
    exact State.escalationFormed_frame hs (by simp) (by simp) (by simp) (by simp) (by simp [State.escalationOn])
      (State.ctx_recordFinish (s.setJobs rest) j.ctx skipped bad)
      (by simp [State.aborting_of_head hmatch hjobs hkind])
  | windowTick => exact State.escalationFormed_windowTick hs
  | windowExpires => exact State.escalationFormed_windowExpires hs
  | leaveEscalation c => exact State.escalationFormed_leaveEscalation hs c
  | escalation t w hidle => exact State.escalationFormed_setEscalation hs hidle t w
  | drain hrun =>
    exact State.enterDraining_keeps (P := fun t => t.escalationFormed = true)
      (fun u c _ hu => State.escalationFormed_takeAbort hu c _ _ _) (fun _ _ h => h) (fun _ _ h => h) hs
  | portGone p =>
    obtain ⟨-, -, -, -, -, -, hcounters, hqueue, htoken, hwindow, hthreshold, hlen, -⟩ := s.portGone_frame p
    refine State.escalationFormed_congr hs hqueue htoken hwindow hcounters
      (by simp [State.escalationOn, hthreshold, hlen]) fun d _ hopen => ?_
    rw [State.ctx_portGone]
    split <;> simpa
  | partReset straps =>
    exact State.GrantPending.formed ⟨List.nodup_nil, fun _ _ => by simp [State.afterPartReset], fun _ h => by
      simp [State.afterPartReset] at h, fun _ => by simp [State.afterPartReset], fun _ => rfl, fun _ => ⟨rfl, rfl⟩,
      fun _ h => by simp [State.afterPartReset] at h⟩ fun _ => rfl
  | _ => exact State.escalationFormed_congr hs rfl rfl rfl rfl rfl fun _ _ h => h

/-- Settles O56: every effect keeps queue, token, timer and counters together, the job queue being matched. -/
theorem stepKeepsEscalationFormed : Obligations.StepKeepsEscalationFormed := by
  intro s t hmatch hformed hstep
  exact (step_keeps (P := fun u => u.jobsMatch = true ∧ u.escalationFormed = true)
    (fun u v h hu => ⟨jobsMatch_kept u v h hu.1, escalationFormed_kept u v h hu.1 hu.2⟩) ⟨hmatch, hformed⟩ hstep).2

end Sys2Proof.Machine
end

section
/-! Quiesce (R12, R182, R183): every step keeps the promise behind QACK#. -/

namespace Sys2Proof.Machine

theorem State.drained_iff (s : State) :
    s.drained = true ↔ s.jobs = [] ∧ ∀ c, (s.ctx c).state = .idle ∨ (s.ctx c).state = .doomed := by
  simp [State.drained]

theorem State.quiesceKept_iff (s : State) :
    s.quiesceKept = true ↔ (s.bridge ≠ .running → ∀ c, (s.ctx c).state ≠ .opened) ∧
      (s.bridge = .quiesced → s.drained = true) := by
  simp [State.quiesceKept, imp_iff_not_or]

theorem State.quiesceKept_of_running {s : State} (h : s.bridge = .running) : s.quiesceKept := by
  simp [State.quiesceKept_iff, h]

/-- An OPEN context says that the bridge is RUNNING (R12). -/
theorem State.running_of_opened {s : State} (hs : s.quiesceKept) {c : CtxId} (hopen : (s.ctx c).state = .opened) :
    s.bridge = .running := by
  by_contra h
  exact ((State.quiesceKept_iff s).mp hs).1 h c hopen

/-- No context becomes OPEN, none goes on hold, and no job comes. -/
theorem State.quiesceKept_congr {s t : State} (hs : s.quiesceKept) (hbridge : t.bridge = s.bridge)
    (hjobs : t.jobs = s.jobs) (hopen : ∀ c, (t.ctx c).state = .opened → (s.ctx c).state = .opened)
    (hrest : ∀ c, (s.ctx c).state = .idle ∨ (s.ctx c).state = .doomed →
      (t.ctx c).state = .idle ∨ (t.ctx c).state = .doomed) : t.quiesceKept := by
  rw [State.quiesceKept_iff, State.drained_iff] at hs ⊢
  rw [hbridge, hjobs]
  refine ⟨fun h c hc => hs.1 h c (hopen c hc), fun h => ?_⟩
  obtain ⟨hempty, hstates⟩ := hs.2 h
  exact ⟨hempty, fun c => hrest c (hstates c)⟩

theorem State.quiesceKept_frame {s t : State} (hs : s.quiesceKept) (hbridge : t.bridge = s.bridge)
    (hjobs : t.jobs = s.jobs) (hctx : ∀ c, (t.ctx c).state = (s.ctx c).state) : t.quiesceKept :=
  State.quiesceKept_congr hs hbridge hjobs (fun c h => by rwa [← hctx]) fun c h => by rwa [hctx]

/-- A context changed without a change of state keeps the promise. -/
theorem State.quiesceKept_set {s t : State} (hs : s.quiesceKept) (hbridge : t.bridge = s.bridge)
    (hjobs : t.jobs = s.jobs) {c : CtxId} {x : Context} (hctx : ∀ d, t.ctx d = if d = c then x else s.ctx d)
    (hx : x.state = (s.ctx c).state) : t.quiesceKept := by
  refine State.quiesceKept_frame hs hbridge hjobs fun d => ?_
  rw [hctx]
  split
  · next h => rw [h, hx]
  · rfl

/-- The drain test makes the promise of a bridge that is not QUIESCED yet (R183). -/
theorem State.quiesceKept_drainTest {s : State} (hquiesced : s.bridge ≠ .quiesced)
    (hopen : s.bridge ≠ .running → ∀ c, (s.ctx c).state ≠ .opened) : s.drainTest.quiesceKept := by
  rw [State.drainTest_eq, State.quiesceKept_iff]
  constructor
  · intro h c
    refine hopen (fun hrun => h ?_) c
    simp [hrun]
  · intro h
    split at h
    · next hdrained =>
      simp only [Bool.and_eq_true] at hdrained
      exact hdrained.2
    · exact absurd h hquiesced

/-- The finish of a job keeps the promise: while a job is queued the bridge is not QUIESCED. -/
theorem State.quiesceKept_jobDone {s t : State} (hs : s.quiesceKept) (hjobs : s.jobs ≠ [])
    (hbridge : t.bridge = s.bridge) (hctx : ∀ c, (t.ctx c).state = .opened → (s.ctx c).state = .opened) :
    t.drainTest.quiesceKept := by
  rw [State.quiesceKept_iff, State.drained_iff] at hs
  refine State.quiesceKept_drainTest (fun h => hjobs (hs.2 (hbridge ▸ h)).1) fun h c hc => ?_
  exact hs.1 (hbridge ▸ h) c (hctx c hc)

/-- After entry to DRAINING no context is OPEN (R182). -/
theorem State.enterDraining_closes (s : State) (c : CtxId) : (s.enterDraining.ctx c).state ≠ .opened := by
  have h : ((s.setBridge .draining).abortAll (s.setBridge .draining).openCtxs .quiesce).ctx c = s.enterDraining.ctx c := by
    unfold State.enterDraining
    simp [State.drainTest_eq]
  rw [← h]
  by_cases hopen : (s.ctx c).state = .opened
  · exact State.abortAll_closes _ _ _ _ _ c (by simpa [State.openCtxs] using hopen)
  · exact fun hc => hopen ((State.abortAll_shrinks (s.setBridge .draining) _ _ _ _).opened c hc)

theorem State.quiesceKept_enterDraining (s : State) : s.enterDraining.quiesceKept := by
  have hclosed := s.enterDraining_closes
  unfold State.enterDraining at *
  simp only at hclosed ⊢
  refine State.quiesceKept_drainTest (by simp) fun _ c => ?_
  simpa [State.drainTest_eq] using hclosed c

theorem quiesceKept_kept (s t : State) (h : State.Effect s t) (hs : s.quiesceKept) : t.quiesceKept := by
  cases h with
  | port h =>
    obtain ⟨hctxs, -, -, -, -, -, hjobs, -, -, -, -, -, -, -, -, hbridge⟩ := h.frame
    exact State.quiesceKept_frame hs hbridge hjobs fun c => by rw [State.ctx_congr hctxs]
  | abort c code cause party hopen =>
    exact State.quiesceKept_of_running (by simpa using State.running_of_opened hs hopen)
  | count c life cycles => exact State.quiesceKept_set hs rfl rfl (State.ctx_setCtx s c · _) rfl
  | countCycle c cycles => exact State.quiesceKept_set hs rfl rfl (State.ctx_setCtx s c · _) rfl
  | start c arg rec hidle hrun => exact State.quiesceKept_of_running (by simpa using hrun)
  | enter c arg => exact State.quiesceKept_set hs rfl rfl (State.ctx_setCtx s c · _) rfl
  | leave c => exact State.quiesceKept_set hs rfl rfl (State.ctx_setCtx s c · _) rfl
  | close c hopen =>
    exact State.quiesceKept_of_running (by simpa [State.leaveOpen] using State.running_of_opened hs hopen)
  | commit c p hopen =>
    refine State.quiesceKept_of_running ?_
    simpa [State.commitStart, State.holdClose, State.leaveOpen] using State.running_of_opened hs hopen
  | hold c p =>
    exact State.quiesceKept_set (c := c) (x := { s.ctx c with held := some p }) hs rfl rfl
      (fun d => by simp [State.holdClose]) rfl
  | clear c =>
    refine State.quiesceKept_congr hs rfl rfl (fun d hd => ?_) fun d hd => ?_
    · rw [State.ctx_idle] at hd
      split at hd
      · simp at hd
      · exact hd
    · rw [State.ctx_idle]
      split
      · exact .inl rfl
      · exact hd
  | release c => exact State.quiesceKept_set hs rfl rfl (State.ctx_setCtx s c · _) rfl
  | jobMoves j k rest hjobs =>
    rw [State.quiesceKept_iff, State.drained_iff] at hs ⊢
    refine ⟨hs.1, fun h => ?_⟩
    simp [(hs.2 h).1] at hjobs
  | commitDone j rest failed hjobs =>
    rw [State.commitFinish_eq]
    refine State.quiesceKept_jobDone hs (by simp [hjobs]) (by simp [State.commitAnswered_fields]) fun c hc => ?_
    rw [State.ctx_idle] at hc
    split at hc
    · simp at hc
    · simpa [State.commitAnswered_fields] using hc
  | recordDone j rest skipped bad hjobs =>
    rw [State.recordFinish_eq]
    refine State.quiesceKept_jobDone hs (by simp [hjobs]) (by simp [State.recordAnswered_fields]) fun c hc => ?_
    rw [State.ctx_setCtx] at hc
    split at hc
    · unfold Context.afterRecord at hc
      split at hc <;> simp at hc
    · simpa [State.recordAnswered_fields] using hc
  | escalation t w =>
    obtain ⟨hctxs, -, -, -, -, -, hjobs, -, -, -, -, -, -, -, -, hbridge⟩ := s.setEscalation_frame t w
    exact State.quiesceKept_frame hs hbridge hjobs fun c => by rw [State.ctx_congr hctxs]
  | drain => exact s.quiesceKept_enterDraining
  | running => exact State.quiesceKept_of_running rfl
  | portGone p =>
    obtain ⟨-, -, -, -, -, hjobs, -, -, -, -, -, -, -, -, hbridge⟩ := s.portGone_frame p
    refine State.quiesceKept_frame hs hbridge hjobs fun d => ?_
    rw [State.ctx_portGone]
    split <;> simp
  | partReset straps => exact State.quiesceKept_of_running rfl
  | windowTick => exact State.quiesceKept_frame hs (by simp) (by simp) (by simp)
  | windowExpires => exact State.quiesceKept_frame hs (by simp) (by simp) (by simp)
  | leaveEscalation c => exact State.quiesceKept_frame hs (by simp) (by simp) (by simp)
  | _ => exact State.quiesceKept_frame hs rfl rfl fun _ => rfl

/-- Settles O57: every effect keeps the promise. -/
theorem stepKeepsQuiesce : Obligations.StepKeepsQuiesce := by
  intro s t hs hstep
  exact step_keeps quiesceKept_kept hs hstep

end Sys2Proof.Machine
end

section
/-! Ports, requests and pairs (R33, R144, R155, R164): every step keeps held marks, requests and pairs with their
ports. -/

namespace Sys2Proof.Machine

/-! ### What stands together -/

/-- The port waits on memory: a read or a write of it is in progress there (R144). -/
def State.atMemory (s : State) (p : PortId) : Prop := ∃ y, (s.port p).cycle = some y ∧ y.atMemory = true

/-- Held marks, requests, the granted burst and pairs stand with their ports; a mark is held only on hold. -/
structure State.PortsMatched (s : State) : Prop where
  onHold : ∀ c p, (s.ctx c).held = some p → s.onHold c = true
  held : ∀ c p, (s.ctx c).held = some p → s.serving p = c ∧ (s.port p).cycle = some .heldClose
  request : ∀ p, (s.reqs.get p).isSome → s.atMemory p
  burst : ∀ b p, s.bus = some b → b.owner = .port p → b.orphan = false → s.atMemory p ∧ s.reqs.get p = none
  pairs : ∀ p q l, (s.port p).pair = some l → (s.port q).pair = some l → p = q

theorem State.heldMatch_iff (s : State) : s.heldMatch = true ↔
    ∀ c p, (s.ctx c).held = some p → s.serving p = c ∧ (s.port p).cycle = some .heldClose := by
  simp [State.heldMatch, Option.all_eq_true]

theorem State.requestsOwned_iff (s : State) : s.requestsOwned = true ↔
    (∀ p, (s.reqs.get p).isSome → s.atMemory p) ∧
    ∀ b p, s.bus = some b → b.owner = .port p → b.orphan = false → s.atMemory p ∧ s.reqs.get p = none := by
  have hany : ∀ p, (s.port p).cycle.any Cycle.atMemory = true ↔ s.atMemory p := fun p => Option.any_eq_true ..
  have hreq : ∀ p, ((s.reqs.get p).isNone = true ∨ s.atMemory p) ↔ ((s.reqs.get p).isSome → s.atMemory p) := by
    intro p
    cases s.reqs.get p <;> simp
  simp only [State.requestsOwned, Bool.and_eq_true, List.all_eq_true, mem_four, forall_const, Bool.or_eq_true, hany,
    hreq, Option.all_eq_true]
  refine and_congr_right fun _ => ⟨fun h b p hb hp horphan => ?_, fun h b hb => ?_⟩
  · simpa [hp, horphan, hany] using h b hb
  · split
    · next p hp =>
      cases horphan : b.orphan with
      | true => simp
      | false => simpa [hany] using h b p hb hp horphan
    · rfl

theorem State.pairsApart_iff (s : State) : s.pairsApart = true ↔
    ∀ p q l, (s.port p).pair = some l → (s.port q).pair = some l → p = q := by
  simp only [State.pairsApart, List.all_eq_true, mem_four, forall_const, Bool.or_eq_true, beq_iff_eq,
    Option.isNone_iff_eq_none, bne_iff_ne, ne_eq]
  refine forall₂_congr fun p q => ⟨fun h l hp hq => ?_, fun h => ?_⟩
  · simpa [hp, hq] using h
  · cases hp : (s.port p).pair with
    | none => simp
    | some l =>
      by_cases hq : (s.port q).pair = some l
      · simp [h l hp hq]
      · exact .inr fun hl => hq hl.symm

theorem State.portsMatched_iff (s : State) : s.PortsMatched ↔
    (∀ c p, (s.ctx c).held = some p → s.onHold c = true) ∧ s.heldMatch = true ∧ s.requestsOwned = true ∧
      s.pairsApart = true := by
  rw [State.heldMatch_iff, State.requestsOwned_iff, State.pairsApart_iff]
  exact ⟨fun ⟨h1, h2, h3, h4, h5⟩ => ⟨h1, h2, ⟨h3, h4⟩, h5⟩, fun ⟨h1, h2, ⟨h3, h4⟩, h5⟩ => ⟨h1, h2, h3, h4, h5⟩⟩

/-! ### Contexts change, ports stand -/

/-- Where cycles, pairs, requests, bus and pairing stand, it is enough that each context keeps its held mark and its
hold, or has no mark held. -/
theorem State.PortsMatched.frame {s t : State} (hs : s.PortsMatched)
    (hserving : ∀ p, t.serving p = s.serving p)
    (hcycle : ∀ p, (t.port p).cycle = (s.port p).cycle) (hpair : ∀ p, (t.port p).pair = (s.port p).pair)
    (hreqs : t.reqs = s.reqs) (hbus : t.bus = s.bus)
    (hctx : ∀ c, (t.ctx c).held = none ∨
      (t.ctx c).held = (s.ctx c).held ∧ (s.onHold c = true → t.onHold c = true)) : t.PortsMatched := by
  have hback : ∀ c p, (t.ctx c).held = some p → (s.ctx c).held = some p ∧ (s.onHold c = true → t.onHold c = true) := by
    intro c p h
    rcases hctx c with hnone | ⟨hsame, hkeep⟩
    · simp [hnone] at h
    · exact ⟨hsame ▸ h, hkeep⟩
  have hmem : ∀ p, t.atMemory p ↔ s.atMemory p := fun p => by simp [State.atMemory, hcycle]
  refine ⟨fun c p h => ?_, fun c p h => ?_, fun p h => ?_, fun b p hb hp ho => ?_, fun p q l hp hq => ?_⟩
  · obtain ⟨hheld, hkeep⟩ := hback c p h
    exact hkeep (hs.onHold c p hheld)
  · rw [hserving, hcycle]
    exact hs.held c p (hback c p h).1
  · rw [hmem]
    exact hs.request p (hreqs ▸ h)
  · rw [hmem, hreqs]
    exact hs.burst b p (hbus ▸ hb) hp ho
  · exact hs.pairs p q l (hpair p ▸ hp) (hpair q ▸ hq)

theorem State.PortsMatched.set {s t : State} (hs : s.PortsMatched) {c : CtxId} {x : Context}
    (hserving : ∀ p, t.serving p = s.serving p) (hports : t.ports = s.ports) (hreqs : t.reqs = s.reqs)
    (hbus : t.bus = s.bus) (hctx : ∀ d, t.ctx d = if d = c then x else s.ctx d)
    (hx : x.held = none ∨ x.held = (s.ctx c).held ∧ x.state = (s.ctx c).state) : t.PortsMatched := by
  refine hs.frame hserving (fun p => by rw [State.port_congr hports]) (fun p => by rw [State.port_congr hports])
    hreqs hbus fun d => ?_
  by_cases hd : d = c
  · subst hd
    have hself : t.ctx d = x := by simp [hctx]
    rw [hself]
    exact hx.imp_right fun h => ⟨h.1, by simp [State.onHold, hself, h.2]⟩
  · have hother : t.ctx d = s.ctx d := by simp [hctx, hd]
    exact .inr ⟨by rw [hother], by simp [State.onHold, hother]⟩

/-- A context that is not on hold has no mark held. -/
theorem State.PortsMatched.held_none {s : State} (hs : s.PortsMatched) {c : CtxId} (h : s.onHold c = false) :
    (s.ctx c).held = none := by
  cases hh : (s.ctx c).held with
  | none => rfl
  | some p => simp [hs.onHold c p hh] at h

theorem Context.held_afterAbort {x : Context} (h : x.held = none) (code : AbortCode) :
    (x.afterAbort code).held = none := by
  unfold Context.afterAbort
  simp only
  split_ifs
  · exact h
  · rfl
  · exact h

theorem Context.held_afterRecord (x : Context) : x.afterRecord.held = none := by
  unfold Context.afterRecord
  split
  · rfl
  · next h =>
    simp only [Bool.or_eq_true, not_or, Bool.not_eq_true, Option.isSome_eq_false_iff,
      Option.isNone_iff_eq_none] at h
    exact h.1

theorem State.PortsMatched.takeAbort {s : State} (hs : s.PortsMatched) {c : CtxId} (hopen : (s.ctx c).state = .opened)
    (code : AbortCode) (cause : Option Addr) (party : Option Party) :
    (s.takeAbort c code cause party).PortsMatched := by
  have hport := s.port_abort c code cause party
  rw [State.abort_open hopen] at hport
  have hheld : (s.ctx c).held = none := hs.held_none (by simp [State.onHold, hopen])
  refine hs.frame (by simp) (fun p => by rw [hport]) (fun p => by rw [hport]) (by simp) (by simp) fun d => ?_
  by_cases hd : d = c
  · subst hd
    rw [State.ctx_takeAbort, if_pos rfl]
    exact .inl (Context.held_afterAbort hheld code)
  · have hother : (s.takeAbort c code cause party).ctx d = s.ctx d := by rw [State.ctx_takeAbort, if_neg hd]
    exact .inr ⟨by rw [hother], by simp [State.onHold, hother]⟩

/-! ### A CLOSE becomes the held mark -/

/-- The CLOSE of a port without a cycle in progress becomes the held mark of its context (R155). -/
theorem State.PortsMatched.holds {s t : State} (hs : s.PortsMatched) {c : CtxId} {p : PortId}
    (hp : s.serving p = c) (hfree : (s.port p).cycle = none) (hserving : ∀ q, t.serving q = s.serving q)
    (hport : ∀ q, t.port q = if q = p then { s.port p with cycle := some .heldClose } else s.port q)
    (hreqs : t.reqs = s.reqs) (hbus : t.bus = s.bus) (hself : (t.ctx c).held = some p ∧ t.onHold c = true)
    (hctx : ∀ d, d ≠ c → t.ctx d = s.ctx d) : t.PortsMatched := by
  have hnot : ¬ s.atMemory p := fun ⟨y, hy, _⟩ => by simp [hfree] at hy
  have hmem : ∀ q, s.atMemory q → t.atMemory q := by
    intro q hq
    have hne : q ≠ p := fun h => hnot (h ▸ hq)
    simpa [State.atMemory, hport, hne] using hq
  have hpair : ∀ q, (t.port q).pair = (s.port q).pair := by
    intro q
    rw [hport]
    split
    · next h => rw [h]
    · rfl
  refine ⟨fun d q h => ?_, fun d q h => ?_, fun q h => ?_, fun b q hb hq ho => ?_, fun q r l hq hr => ?_⟩
  · by_cases hd : d = c
    · exact hd ▸ hself.2
    · rw [hctx d hd] at h
      simpa [State.onHold, hctx d hd] using hs.onHold d q h
  · rw [hserving]
    by_cases hd : d = c
    · subst hd
      obtain rfl : p = q := by simpa [hself.1] using h
      simp [hp, hport]
    · rw [hctx d hd] at h
      obtain ⟨hs1, hs2⟩ := hs.held d q h
      have hne : q ≠ p := fun hqp => by simp [hqp, hfree] at hs2
      simp [hs1, hport, hne, hs2]
  · exact hmem q (hs.request q (hreqs ▸ h))
  · obtain ⟨h1, h2⟩ := hs.burst b q (hbus ▸ hb) hq ho
    exact ⟨hmem q h1, hreqs ▸ h2⟩
  · exact hs.pairs q r l (hpair q ▸ hq) (hpair r ▸ hr)

/-! ### A held CLOSE is answered -/

/-- The held CLOSE of a context is answered, and no mark is held there any more (R18, R80, R103). -/
theorem State.PortsMatched.answersHeld {s t : State} (hs : s.PortsMatched) {c : CtxId} {x : Context}
    (hserving : ∀ q, t.serving q = s.serving q)
    (hcycle : ∀ q, (t.port q).cycle = if (s.ctx c).held = some q then none else (s.port q).cycle)
    (hpair : ∀ q, (t.port q).pair = (s.port q).pair) (hreqs : t.reqs = s.reqs) (hbus : t.bus = s.bus)
    (hctx : ∀ d, t.ctx d = if d = c then x else s.ctx d) (hx : x.held = none) : t.PortsMatched := by
  have hmem : ∀ q, s.atMemory q → t.atMemory q := by
    rintro q ⟨y, hy, hmem⟩
    have hne : (s.ctx c).held ≠ some q := fun h => by
      obtain ⟨-, hclose⟩ := hs.held c q h
      rw [hclose] at hy
      cases hy
      simp [Cycle.atMemory, Cycle.heldClose] at hmem
    exact ⟨y, by rw [hcycle, if_neg hne, hy], hmem⟩
  refine ⟨fun d q h => ?_, fun d q h => ?_, fun q h => ?_, fun b q hb hq ho => ?_, fun q r l hq hr => ?_⟩
  · rw [hctx] at h
    split at h
    · simp [hx] at h
    · next hd => simpa [State.onHold, hctx, hd] using hs.onHold d q h
  · rw [hctx] at h
    split at h
    · simp [hx] at h
    · next hd =>
      obtain ⟨h1, h2⟩ := hs.held d q h
      have hne : (s.ctx c).held ≠ some q := fun hc => hd (h1.symm.trans (hs.held c q hc).1)
      rw [hserving, hcycle, if_neg hne]
      exact ⟨h1, h2⟩
  · exact hmem q (hs.request q (hreqs ▸ h))
  · obtain ⟨h1, h2⟩ := hs.burst b q (hbus ▸ hb) hq ho
    exact ⟨hmem q h1, hreqs ▸ h2⟩
  · exact hs.pairs q r l (hpair q ▸ hq) (hpair r ▸ hr)

/-! ### At the ports -/

/-- A change of one port's cycle, requests and bus that leaves contexts, pairing, and the other ports (R144). -/
theorem State.PortsMatched.atPort {s t : State} (hs : s.PortsMatched) {p : PortId} (hctxs : t.ctxs = s.ctxs)
    (hserving : ∀ q, t.serving q = s.serving q) (hother : ∀ q, q ≠ p → (t.port q).cycle = (s.port q).cycle)
    (hnotHeld : (s.port p).cycle ≠ some .heldClose)
    (hrequest : ∀ q, (t.reqs.get q).isSome → t.atMemory q)
    (hburst : ∀ b q, t.bus = some b → b.owner = .port q → b.orphan = false → t.atMemory q ∧ t.reqs.get q = none)
    (hpairs : ∀ q r l, (t.port q).pair = some l → (t.port r).pair = some l → q = r) : t.PortsMatched := by
  have hctx := State.ctx_congr hctxs
  refine ⟨fun c q h => ?_, fun c q h => ?_, hrequest, hburst, hpairs⟩
  · rw [hctx] at h
    simpa [State.onHold, hctx] using hs.onHold c q h
  · rw [hctx] at h
    obtain ⟨h1, h2⟩ := hs.held c q h
    have hne : q ≠ p := fun hqp => hnotHeld (hqp ▸ h2)
    rw [hserving, hother q hne]
    exact ⟨h1, h2⟩

theorem State.atMemory_congr {s t : State} {p : PortId} (h : (t.port p).cycle = (s.port p).cycle) :
    t.atMemory p ↔ s.atMemory p := by
  simp [State.atMemory, h]

theorem Cycle.not_atPort_heldClose : Cycle.heldClose.atPort = false := rfl

theorem Cycle.not_atMemory_of_atPort {y : Cycle} (h : y.atPort = true) : y.atMemory = false := by
  unfold Cycle.atPort at h
  unfold Cycle.atMemory
  cases hy : y.phase <;> simp_all

/-- Where every cycle and request stands, only bus and pairs have to be looked at. -/
theorem State.PortsMatched.still {s t : State} (hs : s.PortsMatched) (hctxs : t.ctxs = s.ctxs)
    (hserving : ∀ q, t.serving q = s.serving q) (hcycle : ∀ q, (t.port q).cycle = (s.port q).cycle)
    (hreqs : t.reqs = s.reqs)
    (hburst : ∀ b q, t.bus = some b → b.owner = .port q → b.orphan = false →
      ∃ b', s.bus = some b' ∧ b'.owner = .port q ∧ b'.orphan = false)
    (hpairs : ∀ q r l, (t.port q).pair = some l → (t.port r).pair = some l → q = r) : t.PortsMatched := by
  have hctx := State.ctx_congr hctxs
  have hmem : ∀ q, t.atMemory q ↔ s.atMemory q := fun q => State.atMemory_congr (hcycle q)
  refine ⟨fun c q h => ?_, fun c q h => ?_, fun q h => ?_, fun b q hb hq ho => ?_, hpairs⟩
  · rw [hctx] at h
    simpa [State.onHold, hctx] using hs.onHold c q h
  · rw [hctx] at h
    rw [hserving, hcycle]
    exact hs.held c q h
  · rw [hmem]
    exact hs.request q (hreqs ▸ h)
  · obtain ⟨b', hb', hq', ho'⟩ := hburst b q hb hq ho
    rw [hmem, hreqs]
    exact hs.burst b' q hb' hq' ho'

theorem portsMatched_port (s t : State) (h : State.PortEffect s t) (hs : s.PortsMatched) : t.PortsMatched := by
  have hsame : ∀ b q, s.bus = some b → b.owner = .port q → b.orphan = false →
      ∃ b', s.bus = some b' ∧ b'.owner = .port q ∧ b'.orphan = false :=
    fun b _ hb hq ho => ⟨b, hb, hq, ho⟩
  cases h with
  | port p x hcycle hpair =>
    have hcycles : ∀ q, ((s.setPort p x).port q).cycle = (s.port q).cycle := by
      intro q
      rw [State.port_setPort]
      split
      · next h => rw [hcycle, h]
      · rfl
    have hpairs : ∀ q, ((s.setPort p x).port q).pair = (s.port q).pair := by
      intro q
      rw [State.port_setPort]
      split
      · next h => rw [hpair, h]
      · rfl
    exact hs.still rfl (fun _ => rfl) hcycles rfl hsame fun q r l hq hr =>
      hs.pairs q r l (hpairs q ▸ hq) (hpairs r ▸ hr)
  | cycle p y hold hnew =>
    have hnot : ¬ s.atMemory p := by
      rintro ⟨z, hz, hmem⟩
      rw [hz] at hold
      simp [Cycle.not_atMemory_of_atPort hold] at hmem
    have hne : ∀ q, s.atMemory q → q ≠ p := fun q hq h => hnot (h ▸ hq)
    have hmem : ∀ q, s.atMemory q → (s.setCycle p y).atMemory q := by
      intro q hq
      simpa [State.atMemory, hne q hq] using hq
    refine hs.atPort (p := p) rfl (fun _ => rfl) (fun q hq => by simp [hq]) (fun h => ?_)
      (fun q h => hmem q (hs.request q h)) (fun b q hb hq ho => ?_) fun q r l hq hr => hs.pairs q r l ?_ ?_
    · simp [h, Cycle.not_atPort_heldClose] at hold
    · obtain ⟨h1, h2⟩ := hs.burst b q hb hq ho
      exact ⟨hmem q h1, h2⟩
    · rw [State.port_setCycle] at hq
      split at hq <;> simp_all
    · rw [State.port_setCycle] at hr
      split at hr <;> simp_all
  | pairEnds p =>
    refine hs.still rfl (fun _ => rfl) (fun q => ?_) rfl hsame fun q r l hq hr => ?_
    · rw [State.port_setPair]
      split <;> simp_all
    · rw [State.port_setPair] at hq hr
      split at hq <;> split at hr <;> simp_all
      exact hs.pairs q r l hq hr
  | pairOpens p l halone =>
    refine hs.still rfl (fun _ => rfl) (fun q => ?_) rfl hsame fun q r l' hq hr => ?_
    · rw [State.port_setPair]
      split <;> simp_all
    · rw [State.port_setPair] at hq hr
      split at hq <;> split at hr <;> simp_all
      exact hs.pairs q r l' hq hr
  | send p y r hcycle hy =>
    have hnot : ¬ s.atMemory p := fun ⟨z, hz, _⟩ => by simp [hcycle] at hz
    have hmem : ∀ q, s.atMemory q → ((s.setCycle p (some y)).setReq p (some r)).atMemory q := by
      intro q hq
      have hne : q ≠ p := fun h => hnot (h ▸ hq)
      simpa [State.atMemory, hne] using hq
    have hself : ((s.setCycle p (some y)).setReq p (some r)).atMemory p := ⟨y, by simp, hy⟩
    refine hs.atPort (p := p) rfl (fun _ => rfl) (fun q hq => by simp [hq]) (by simp [hcycle]) (fun q h => ?_)
      (fun b q hb hq ho => ?_) fun q r' l hq hr => hs.pairs q r' l ?_ ?_
    · by_cases hq : q = p
      · exact hq ▸ hself
      · exact hmem q (hs.request q (by simpa [State.setReq, hq] using h))
    · obtain ⟨h1, h2⟩ := hs.burst b q hb hq ho
      have hne : q ≠ p := fun h => hnot (h ▸ h1)
      exact ⟨hmem q h1, by simpa [State.setReq, hne] using h2⟩
    · simp only [State.setReq_views, State.port_setCycle] at hq
      split at hq <;> simp_all
    · simp only [State.setReq_views, State.port_setCycle] at hr
      split at hr <;> simp_all
  | grant p r hbus hreq =>
    have hp : s.atMemory p := hs.request p (by simp [hreq])
    refine ⟨hs.onHold, hs.held, fun q h => ?_, fun b q hb hq ho => ?_, hs.pairs⟩
    · have h' : ((s.reqs.set p none).get q).isSome := h
      rw [Four.get_set] at h'
      split at h'
      · simp at h'
      · exact hs.request q h'
    · obtain rfl : busOf (.port p) r.burst r.closing = b := by simpa using hb
      obtain rfl : p = q := by simpa [busOf] using hq
      exact ⟨hp, Four.get_set_same ..⟩
  | grantEngine b hbus =>
    refine hs.still rfl (fun _ => rfl) (fun _ => rfl) rfl (fun b' q hb hq _ => ?_) hs.pairs
    obtain rfl : busOf .engine b false = b' := by simpa using hb
    simp [busOf] at hq
  | beat b n bad hbus =>
    refine hs.still rfl (fun _ => rfl) (fun _ => rfl) rfl (fun b' q hb hq ho => ?_) hs.pairs
    obtain rfl : { b with answered := n, bad := bad } = b' := by simpa using hb
    exact ⟨b, hbus, hq, ho⟩
  | busFree => exact hs.still rfl (fun _ => rfl) (fun _ => rfl) rfl (fun b' q hb => by simp at hb) hs.pairs
  | burstEnds p b hbus howner horphan =>
    obtain ⟨⟨y, hy, hmem⟩, hreq⟩ := hs.burst b p hbus howner horphan
    refine hs.atPort (p := p) rfl (fun _ => rfl) (fun q hq => by simp [hq]) (fun h => ?_) (fun q h => ?_)
      (fun b q hb => by simp at hb) fun q r l hq hr => hs.pairs q r l ?_ ?_
    · rw [h] at hy
      cases hy
      simp [Cycle.atMemory, Cycle.heldClose] at hmem
    · have hne : q ≠ p := fun hqp => by
        subst hqp
        have h' : (s.reqs.get q).isSome := h
        simp [hreq] at h'
      obtain ⟨z, hz, hz'⟩ := hs.request q h
      exact ⟨z, by simpa [hne] using hz, hz'⟩
    · rw [State.port_setCycle] at hq
      split at hq <;> simp_all
    · rw [State.port_setCycle] at hr
      split at hr <;> simp_all
  | setting => exact ⟨hs.onHold, hs.held, hs.request, hs.burst, hs.pairs⟩

/-! ### A port reset -/

theorem State.portGone_ports (s : State) (p : PortId) :
    (∀ q, (s.portGone p).port q =
      if q = p then { PortState.reset true with flags := (s.port p).flags } else s.port q) ∧
    (s.portGone p).reqs = s.reqs.set p none ∧
    (s.portGone p).bus = s.bus.map (fun b => if b.owner = .port p then { b with orphan := true } else b) := by
  have hflags : ((s.dropInFlight p).setReq p none |>.orphanBurst p).port p = s.port p := by
    unfold State.dropInFlight State.orphanBurst
    split
    · split <;> rfl
    · rfl
  have hreqs : (s.dropInFlight p).reqs = s.reqs ∧ (s.dropInFlight p).bus = s.bus ∧
      ∀ q, (s.dropInFlight p).port q = s.port q := by
    unfold State.dropInFlight
    split
    · split <;> exact ⟨rfl, rfl, fun _ => rfl⟩
    · exact ⟨rfl, rfl, fun _ => rfl⟩
  have hdiscard : ∀ (t : State) (c : CtxId), (t.discardClose c p).ports = t.ports ∧ (t.discardClose c p).reqs = t.reqs ∧
      (t.discardClose c p).bus = t.bus := by
    intro t c
    unfold State.discardClose
    split <;> exact ⟨rfl, rfl, rfl⟩
  obtain ⟨hports, hreqs', hbus⟩ := hdiscard (s.resetPort p) (s.serving p)
  refine ⟨fun q => ?_, hreqs'.trans ?_, hbus.trans ?_⟩
  · rw [State.portGone, State.port_congr hports, State.resetPort]
    simp only [State.port_setPort, hflags]
    split
    · rfl
    · simp [State.orphanBurst, hreqs.2.2]
  · simp [State.resetPort, State.orphanBurst, State.setReq, hreqs.1]
  · simp [State.resetPort, State.orphanBurst, hreqs.2.1]

theorem State.PortsMatched.portGone {s : State} (hs : s.PortsMatched) (p : PortId) : (s.portGone p).PortsMatched := by
  obtain ⟨hport, hreqs, hbus⟩ := s.portGone_ports p
  obtain ⟨-, -, -, -, -, -, -, -, -, -, -, -, hjoinA, hjoinB, -⟩ := s.portGone_frame p
  have hserving := State.serving_congr hjoinA hjoinB
  have hheld : ∀ c q, ((s.portGone p).ctx c).held = some q → (s.ctx c).held = some q ∧ q ≠ p := by
    intro c q h
    rw [State.ctx_portGone] at h
    split at h
    · unfold Context.discardHeld at h
      split at h
      · simp at h
      · next hne => exact ⟨h, fun hq => hne (hq ▸ h)⟩
    · next hnot =>
      refine ⟨h, fun hq => hnot ⟨?_, hs.onHold c q h⟩⟩
      rw [← hq, (hs.held c q h).1]
  have hmem : ∀ q, q ≠ p → s.atMemory q → (s.portGone p).atMemory q := by
    intro q hq h
    simpa [State.atMemory, hport, hq] using h
  refine ⟨fun c q h => ?_, fun c q h => ?_, fun q h => ?_, fun b q hb hq ho => ?_, fun q r l hq hr => ?_⟩
  · have hstate : ((s.portGone p).ctx c).state = (s.ctx c).state := by
      rw [State.ctx_portGone]
      split <;> simp
    simpa [State.onHold, hstate] using hs.onHold c q (hheld c q h).1
  · obtain ⟨h', hne⟩ := hheld c q h
    rw [hserving, hport, if_neg hne]
    exact hs.held c q h'
  · rw [hreqs, Four.get_set] at h
    split at h
    · simp at h
    · next hne => exact hmem q hne (hs.request q h)
  · rw [hbus, Option.map_eq_some_iff] at hb
    obtain ⟨b', hb', rfl⟩ := hb
    by_cases hown : b'.owner = .port p
    · simp [hown] at ho
    · rw [if_neg hown] at hq ho
      obtain ⟨h1, h2⟩ := hs.burst b' q hb' hq ho
      have hqp : q ≠ p := fun h => hown (h ▸ hq)
      exact ⟨hmem q hqp h1, by rw [hreqs, Four.get_set, if_neg hqp, h2]⟩
  · rw [hport] at hq hr
    split at hq
    · simp [PortState.reset] at hq
    · split at hr
      · simp [PortState.reset] at hr
      · exact hs.pairs q r l hq hr

/-! ### Every effect keeps them together -/

theorem portsMatched_kept (s t : State) (h : State.Effect s t) (hs : s.PortsMatched) : t.PortsMatched := by
  cases h with
  | port h => exact portsMatched_port s t h hs
  | abort c code cause party hopen => exact hs.takeAbort hopen code cause party
  | count c life cycles => exact hs.set (fun _ => rfl) rfl rfl rfl (State.ctx_setCtx s c · _) (.inr ⟨rfl, rfl⟩)
  | countCycle c cycles => exact hs.set (fun _ => rfl) rfl rfl rfl (State.ctx_setCtx s c · _) (.inr ⟨rfl, rfl⟩)
  | enter c arg => exact hs.set (fun _ => rfl) rfl rfl rfl (State.ctx_setCtx s c · _) (.inr ⟨rfl, rfl⟩)
  | leave c => exact hs.set (fun _ => rfl) rfl rfl rfl (State.ctx_setCtx s c · _) (.inr ⟨rfl, rfl⟩)
  | release c => exact hs.set (fun _ => rfl) rfl rfl rfl (State.ctx_setCtx s c · _) (.inr ⟨rfl, rfl⟩)
  | start c arg rec hidle =>
    have hheld : (s.ctx c).held = none := hs.held_none (by simp [State.onHold, hidle])
    exact hs.set (c := c) (x := (s.ctx c).started arg rec) (by simp) (by simp) (by simp) (by simp) (fun d => by simp)
      (.inl hheld)
  | close c =>
    exact hs.set (c := c) (x := (s.ctx c).toIdle) (by simp [State.leaveOpen]) (by simp [State.leaveOpen])
      (by simp [State.leaveOpen]) (by simp [State.leaveOpen]) (fun d => by simp [State.leaveOpen]) (.inl rfl)
  | commit c p hopen hslots hdepth hserving hcycle =>
    refine hs.holds hserving hcycle ?_ (fun q => ?_) ?_ ?_ ⟨?_, ?_⟩ fun d hd => ?_
    · simp [State.commitStart, State.holdClose, State.leaveOpen]
    · simp [State.commitStart, State.holdClose, State.leaveOpen]
    · simp [State.commitStart, State.holdClose, State.leaveOpen]
    · simp [State.commitStart, State.holdClose, State.leaveOpen]
    · simp [State.ctx_commitStart]
    · simp [State.onHold, State.ctx_commitStart]
    · simp [State.ctx_commitStart, hd]
  | hold c p haborting hheld hserving hcycle =>
    refine hs.holds hserving hcycle (fun _ => rfl) (fun q => ?_) rfl rfl ⟨?_, ?_⟩ fun d hd => ?_
    · simp [State.holdClose]
    · simp [State.holdClose]
    · simp [State.onHold, State.holdClose, haborting]
    · simp [State.holdClose, hd]
  | clear c => exact hs.set (fun _ => rfl) rfl rfl rfl (State.ctx_idle s c) (.inl rfl)
  | commitDone j rest failed =>
    exact hs.answersHeld (c := j.ctx) (x := (s.ctx j.ctx).toIdle) (by simp [State.serving]) (by simp) (by simp)
      (by simp) (by simp) (by simp) rfl
  | recordDone j rest skipped bad =>
    exact hs.answersHeld (c := j.ctx) (x := (s.ctx j.ctx).afterRecord) (by simp [State.serving]) (by simp) (by simp)
      (by simp) (by simp) (by simp) (Context.held_afterRecord _)
  | pairing a b hidle =>
    have hnone : ∀ c, (s.ctx c).held = none := fun c => hs.held_none (by simp [State.onHold, hidle c])
    exact ⟨hs.onHold, fun c q h => absurd ((hnone c).symm.trans h) (by simp), hs.request, hs.burst, hs.pairs⟩
  | escalation t w =>
    obtain ⟨hctxs, -, -, -, -, -, -, -, -, -, hports, hbus, hreqs, hjoinA, hjoinB, -⟩ := s.setEscalation_frame t w
    refine hs.still hctxs (State.serving_congr hjoinA hjoinB) (fun q => by rw [State.port_congr hports]) hreqs
      (fun b q hb hq ho => ⟨b, hbus ▸ hb, hq, ho⟩) fun q r l hq hr => ?_
    rw [State.port_congr hports] at hq hr
    exact hs.pairs q r l hq hr
  | drain hrun =>
    exact State.enterDraining_keeps (P := State.PortsMatched) (fun u c hopen hu => hu.takeAbort hopen _ _ _)
      (fun _ _ h => ⟨h.onHold, h.held, h.request, h.burst, h.pairs⟩)
      (fun _ _ h => ⟨h.onHold, h.held, h.request, h.burst, h.pairs⟩) hs
  | portGone p => exact hs.portGone p
  | partReset straps =>
    refine ⟨fun c p h => ?_, fun c p h => ?_, fun p h => ?_, fun b p hb => ?_, fun p q l hp => ?_⟩
    · simp [State.ctx, State.afterPartReset, Context.reset] at h
    · simp [State.ctx, State.afterPartReset, Context.reset] at h
    · simp [State.afterPartReset] at h
    · simp [State.afterPartReset] at hb
    · have hnone : (State.portsAtReset s).get p = .reset (s.port p).resetPin := by fin_cases p <;> rfl
      simp [State.port, hnone, PortState.reset] at hp
  | windowTick => exact hs.frame (by simp) (by simp) (by simp) (by simp) (by simp) fun c => .inr (by simp [State.onHold])
  | windowExpires =>
    exact hs.frame (by simp) (by simp) (by simp) (by simp) (by simp) fun c => .inr (by simp [State.onHold])
  | leaveEscalation d =>
    exact hs.frame (by simp) (by simp) (by simp) (by simp) (by simp) fun c => .inr (by simp [State.onHold])
  | _ => exact ⟨hs.onHold, hs.held, hs.request, hs.burst, hs.pairs⟩

/-- Settles O58: every effect keeps them together; that a mark is held only on hold, the contexts' form tells at the
start of the step. -/
theorem stepKeepsPortsMatched : Obligations.StepKeepsPortsMatched := by
  intro s t hformed hheld hrequests hpairs hstep
  have honHold : ∀ c p, (s.ctx c).held = some p → s.onHold c = true := by
    intro c p h
    obtain ⟨-, -, -, -, -, -, -, -, hon, -⟩ := (Context.formed_iff _).mp ((State.contextsFormed_iff s).mp hformed c)
    exact (s.onHold_iff c).mpr (by simpa [h] using hon)
  have ht := step_keeps portsMatched_kept ((State.portsMatched_iff s).mpr ⟨honHold, hheld, hrequests, hpairs⟩) hstep
  exact ((State.portsMatched_iff t).mp ht).2

end Sys2Proof.Machine
end

section
/-! The store (R53, R55, R56) and the tracked sets (R37): every step keeps each slot on its owner's list alone, no line
staged twice, and a staged line out of every other OPEN group's footprint. -/

namespace Sys2Proof.Machine

/-! ### The store and the tracked sets, slot by slot -/

theorem State.mem_writes_iff (s : State) (c : CtxId) (l : Line) :
    l ∈ s.writes c ↔ ∃ i b, i ∈ s.order c ∧ s.slots[i.val] = some b ∧ b.line = l := by
  simp [State.writes, State.slotLine, Option.map_eq_some_iff]

/-- Lists and slots stand where R53 puts them, and no line is in two slots. -/
structure State.StoreFormed (s : State) : Prop where
  nodup : ∀ c, (s.order c).Nodup
  capped : ∀ c, (s.order c).length ≤ s.caps.get c
  active : ∀ c, s.order c = [] ∨ (s.ctx c).state = .opened ∨ (s.ctx c).state = .committing
  listed : ∀ i c, i ∈ s.order c ↔ ∃ b, s.slots[i.val] = some b ∧ b.owner = c
  written : ∀ (i : SlotId) b, s.slots[i.val] = some b → b.bytes.toList.any Option.isSome = true
  locked : ∀ (i : SlotId) b, s.slots[i.val] = some b → (b.locked = true ↔ (s.ctx b.owner).state = .committing)
  apart : ∀ (i j : SlotId) b d, s.slots[i.val] = some b → s.slots[j.val] = some d → b.line = d.line → i = j

theorem State.slotListed_iff (s : State) (i : SlotId) : s.slotListed i = true ↔
    (∀ c, i ∈ s.order c ↔ ∃ b, s.slots[i.val] = some b ∧ b.owner = c) ∧
    ∀ b, s.slots[i.val] = some b → b.bytes.toList.any Option.isSome = true ∧
      (b.locked = true ↔ (s.ctx b.owner).state = .committing) := by
  have hbeq : ∀ a b : Bool, (a == b) = true ↔ (a = true ↔ b = true) := by decide
  unfold State.slotListed
  rw [Fin.getElem_fin]
  cases hslot : s.slots[i.val] with
  | none => simp
  | some b => 
    simp only [Bool.and_eq_true, hbeq, List.all_eq_true, mem_four, forall_const, List.contains_iff_mem, beq_iff_eq,
      Option.some.injEq, exists_eq_left', forall_eq']
    rw [and_comm]
    refine and_congr_left fun _ => forall_congr' fun c => ?_
    rw [eq_comm]

/-- With every slot listed, the lines of the lists are pairwise different when no line is in two slots. -/
theorem State.writes_nodup_iff {s : State} (hnodup : ∀ c, (s.order c).Nodup)
    (hlisted : ∀ i c, i ∈ s.order c ↔ ∃ b, s.slots[i.val] = some b ∧ b.owner = c) :
    (four.flatMap s.writes).Nodup ↔
      ∀ (i j : SlotId) b d, s.slots[i.val] = some b → s.slots[j.val] = some d → b.line = d.line → i = j := by
  have hslots : ∀ (i : SlotId) b, s.slots[i.val] = some b → i ∈ s.order b.owner :=
    fun i b hb => (hlisted i _).mpr ⟨b, hb, rfl⟩
  have hpair : List.Pairwise (· ≠ ·) four := by decide
  constructor
  · intro h i j b d hb hd hline
    obtain ⟨hown, hother⟩ := List.nodup_flatMap.mp h
    have hi : b.line ∈ s.writes b.owner := (s.mem_writes_iff _ _).mpr ⟨i, b, hslots i b hb, hb, rfl⟩
    have hj : b.line ∈ s.writes d.owner := (s.mem_writes_iff _ _).mpr ⟨j, d, hslots j d hd, hd, hline.symm⟩
    have howner : b.owner = d.owner := by
      by_contra hne
      have hsym : Std.Symm (Function.onFun List.Disjoint s.writes) := ⟨fun _ _ h => h.symm⟩
      exact hother.forall (mem_four _) (mem_four _) hne hi hj
    have hpairs := List.pairwise_filterMap.mp (hown b.owner (mem_four _))
    have hsym : Std.Symm fun i j => ∀ l, s.slotLine i = some l → ∀ l', s.slotLine j = some l' → l ≠ l' :=
      ⟨fun _ _ h l hl l' hl' => (h l' hl' l hl).symm⟩
    by_contra hne
    exact hpairs.forall (hslots i b hb) (howner ▸ hslots j d hd) hne _ (by simp [State.slotLine, hb]) _
      (by simp [State.slotLine, hd]) hline
  · intro h
    refine List.nodup_flatMap.mpr ⟨fun c _ => ?_, hpair.imp fun {c d} hcd => ?_⟩
    · refine List.pairwise_filterMap.mpr ((hnodup c).pairwise_of_forall_ne fun i _ j _ hij l hl l' hl' hline => ?_)
      simp only [State.slotLine, Option.map_eq_some_iff] at hl hl'
      obtain ⟨b, hb, rfl⟩ := hl
      obtain ⟨d, hd, rfl⟩ := hl'
      exact hij (h i j b d hb hd hline)
    · intro l hc hd
      obtain ⟨i, b, hi, hb, rfl⟩ := (s.mem_writes_iff _ _).mp hc
      obtain ⟨j, d', hj, hd', hline⟩ := (s.mem_writes_iff _ _).mp hd
      obtain rfl := h i j b d' hb hd' hline.symm
      obtain ⟨b₁, hb₁, rfl⟩ := (hlisted _ _).mp hi
      obtain ⟨b₂, hb₂, rfl⟩ := (hlisted _ _).mp hj
      rw [hb₁] at hb₂
      exact hcd (by cases hb₂; rfl)

theorem State.storeFormed_iff (s : State) : s.storeFormed = true ↔ s.StoreFormed := by
  simp only [State.storeFormed, Bool.and_eq_true, List.all_eq_true, mem_four, List.mem_finRange, forall_const,
    decide_eq_true_eq, State.slotListed_iff, Bool.or_eq_true, List.isEmpty_iff, beq_iff_eq, or_assoc]
  constructor
  · rintro ⟨⟨hlists, hslots⟩, hapart⟩
    have hnodup := fun c => (hlists c).1.1
    have hlisted := fun i => (hslots i).1
    exact ⟨hnodup, fun c => (hlists c).1.2, fun c => (hlists c).2, hlisted, fun i b hb => ((hslots i).2 b hb).1,
      fun i b hb => ((hslots i).2 b hb).2, (State.writes_nodup_iff hnodup hlisted).mp hapart⟩
  · intro h
    exact ⟨⟨fun c => ⟨⟨h.nodup c, h.capped c⟩, h.active c⟩,
      fun i => ⟨h.listed i, fun b hb => ⟨h.written i b hb, h.locked i b hb⟩⟩⟩,
      (State.writes_nodup_iff h.nodup h.listed).mpr h.apart⟩

theorem State.writesAlone_iff (s : State) : s.writesAlone = true ↔
    ∀ c d, c ≠ d → (s.ctx c).state = .opened → (s.ctx d).state = .opened →
      ∀ l ∈ s.writes c, l ∉ s.reads d ∧ l ∉ s.writes d := by
  simp only [State.writesAlone, State.inFootprint, List.all_eq_true, mem_four, forall_const, Bool.or_eq_true, beq_iff_eq, bne_iff_ne, ne_eq,
    Bool.not_eq_true', Bool.or_eq_false_iff, List.contains_eq_mem, decide_eq_false_iff_not, imp_iff_not_or, or_assoc,
    Decidable.not_not]

/-- The store formed, and staged lines of OPEN groups out of the other OPEN groups' footprints. -/
structure State.StoreKept (s : State) : Prop where
  store : s.StoreFormed
  alone : ∀ c d, c ≠ d → (s.ctx c).state = .opened → (s.ctx d).state = .opened →
    ∀ l ∈ s.writes c, l ∉ s.reads d ∧ l ∉ s.writes d

theorem State.writes_of_order_nil {s : State} {c : CtxId} (h : s.order c = []) : s.writes c = [] := by
  simp [State.writes, h]

theorem State.writes_congr {s t : State} (hslots : t.slots = s.slots) {c : CtxId} (h : t.order c = s.order c) :
    t.writes c = s.writes c := by
  simp only [State.writes, h]
  congr 1
  funext i
  simp [State.slotLine, hslots]

/-- A context that is neither OPEN nor COMMITTING has neither read set nor slots (R29, R55). -/
theorem State.StoreKept.bare {s : State} (hs : s.StoreKept) (hreads : s.readsBounded) {c : CtxId}
    (hopen : (s.ctx c).state ≠ .opened) (hcommit : (s.ctx c).state ≠ .committing) :
    s.order c = [] ∧ s.reads c = [] := by
  obtain ⟨-, -, hread⟩ := (State.readsBounded_iff s).mp hreads c
  have hact := hs.store.active c
  exact ⟨by simpa [hopen, hcommit] using hact, by simpa [hopen] using hread⟩

/-! ### Slots and read sets stand -/

/-- Where slots, lists, caps and read sets stand, it is enough that a context changes its state only with neither
slots nor read set. -/
theorem State.StoreKept.frame {s t : State} (hs : s.StoreKept) (hslots : t.slots = s.slots)
    (horders : ∀ c, t.order c = s.order c) (hcaps : ∀ c, t.caps.get c = s.caps.get c)
    (hreads : ∀ c, t.reads c = s.reads c)
    (hctx : ∀ c, (t.ctx c).state = (s.ctx c).state ∨ s.order c = [] ∧ s.reads c = []) : t.StoreKept := by
  have hwrites : ∀ c, t.writes c = s.writes c := fun c => State.writes_congr hslots (horders c)
  have hstate : ∀ c, s.order c ≠ [] → (t.ctx c).state = (s.ctx c).state := by
    intro c hne
    exact (hctx c).resolve_right fun h => hne h.1
  refine ⟨⟨fun c => ?_, fun c => ?_, fun c => ?_, fun i c => ?_, fun i b hb => ?_, fun i b hb => ?_, ?_⟩, ?_⟩
  · exact horders c ▸ hs.store.nodup c
  · rw [horders, hcaps]
    exact hs.store.capped c
  · rw [horders]
    by_cases hnil : s.order c = []
    · exact .inl hnil
    · rw [hstate c hnil]
      exact hs.store.active c
  · rw [horders, hslots]
    exact hs.store.listed i c
  · exact hs.store.written i b (hslots ▸ hb)
  · rw [hslots] at hb
    have hmem : i ∈ s.order b.owner := (hs.store.listed i _).mpr ⟨b, hb, rfl⟩
    rw [hstate _ (List.ne_nil_of_mem hmem)]
    exact hs.store.locked i b hb
  · rw [hslots]
    exact hs.store.apart
  · intro c d hne hc hd l hl
    rw [hwrites] at hl
    rw [hreads, hwrites]
    have hcs : (s.ctx c).state = .opened := by
      rw [← hc, hstate]
      intro hnil
      simp [State.writes_of_order_nil hnil] at hl
    rcases hctx d with hds | ⟨hnil, hread⟩
    · exact hs.alone c d hne hcs (hds ▸ hd) l hl
    · simp [State.writes_of_order_nil hnil, hread]

theorem State.StoreKept.set {s t : State} (hs : s.StoreKept) {c : CtxId} {x : Context} (hslots : t.slots = s.slots)
    (horders : ∀ c, t.order c = s.order c) (hcaps : ∀ c, t.caps.get c = s.caps.get c)
    (hreads : ∀ c, t.reads c = s.reads c) (hctx : ∀ d, t.ctx d = if d = c then x else s.ctx d)
    (hx : x.state = (s.ctx c).state ∨ s.order c = [] ∧ s.reads c = []) : t.StoreKept := by
  refine hs.frame hslots horders hcaps hreads fun d => ?_
  rw [hctx]
  split
  · next h => exact h ▸ hx
  · exact .inl rfl

/-! ### Slots become free -/

/-- The slots of one context become free, its list is emptied and it is not OPEN (R67, R68). -/
theorem State.StoreKept.frees {s t : State} (hs : s.StoreKept) {c : CtxId}
    (hslots : ∀ i : SlotId, t.slots[i.val] = if i ∈ s.order c then none else s.slots[i.val])
    (horders : ∀ d, t.order d = if d = c then [] else s.order d) (hcaps : ∀ d, t.caps.get d = s.caps.get d)
    (hreads : ∀ d, d ≠ c → t.reads d = s.reads d) (hself : (t.ctx c).state ≠ .opened)
    (hctx : ∀ d, d ≠ c → (t.ctx d).state = (s.ctx d).state) : t.StoreKept := by
  have hback : ∀ (i : SlotId) b, t.slots[i.val] = some b → s.slots[i.val] = some b ∧ b.owner ≠ c := by
    intro i b hb
    rw [hslots] at hb
    split at hb
    · simp at hb
    · next hnot => exact ⟨hb, fun h => hnot ((hs.store.listed i c).mpr ⟨b, hb, h⟩)⟩
  have hother : ∀ d, d ≠ c → t.order d = s.order d := fun d hd => by rw [horders, if_neg hd]
  have hwrites : ∀ d, d ≠ c → ∀ l, l ∈ t.writes d → l ∈ s.writes d := by
    intro d hd l hl
    obtain ⟨i, b, hi, hb, hline⟩ := (t.mem_writes_iff d l).mp hl
    exact (s.mem_writes_iff d l).mpr ⟨i, b, hother d hd ▸ hi, (hback i b hb).1, hline⟩
  refine ⟨⟨fun d => ?_, fun d => ?_, fun d => ?_, fun i d => ?_, fun i b hb => ?_, fun i b hb => ?_,
    fun i j b d hb hd => ?_⟩, fun d e hne hd he l hl => ?_⟩
  · rw [horders]
    split
    · exact List.nodup_nil
    · exact hs.store.nodup d
  · rw [horders, hcaps]
    split
    · simp
    · exact hs.store.capped d
  · by_cases hd : d = c
    · simp [horders, hd]
    · rw [hother d hd, hctx d hd]
      exact hs.store.active d
  · by_cases hd : d = c
    · rw [horders, if_pos hd]
      refine iff_of_false (List.not_mem_nil) ?_
      rintro ⟨b, hb, rfl⟩
      exact (hback i b hb).2 hd
    · rw [hother d hd, hs.store.listed i d, hslots]
      split
      · next hi =>
        obtain ⟨b, hb, hown⟩ := (hs.store.listed i c).mp hi
        have hfalse : ¬ ∃ b, s.slots[i.val] = some b ∧ b.owner = d := by
          rintro ⟨b', hb', hown'⟩
          rw [hb] at hb'
          cases hb'
          exact hd (hown'.symm.trans hown)
        exact iff_of_false hfalse (by simp)
      · rfl
  · exact hs.store.written i b (hback i b hb).1
  · obtain ⟨hb', hne⟩ := hback i b hb
    rw [hctx _ hne]
    exact hs.store.locked i b hb'
  · exact hs.store.apart i j b d (hback i b hb).1 (hback j d hd).1
  · have hdc : d ≠ c := fun h => hself (h ▸ hd)
    have hec : e ≠ c := fun h => hself (h ▸ he)
    obtain ⟨hread, hwrite⟩ := hs.alone d e hne (hctx d hdc ▸ hd) (hctx e hec ▸ he) l (hwrites d hdc l hl)
    exact ⟨hreads e hec ▸ hread, fun h => hwrite (hwrites e hec l h)⟩

theorem State.StoreKept.takeAbort {s : State} (hs : s.StoreKept) (c : CtxId) (code : AbortCode)
    (cause : Option Addr) (party : Option Party) : (s.takeAbort c code cause party).StoreKept :=
  hs.frees (c := c) (by simp) (by simp) (by simp) (fun d hd => by simp [hd])
    (by simpa using Context.afterAbort_not_opened _ code) fun d hd => by simp [hd]

/-! ### Slots are rewritten -/

/-- One slot is another for its owner and its line. -/
def SlotBody.stands (b d : SlotBody) : Prop := d.owner = b.owner ∧ d.line = b.line

/-- Lists, caps and lines stand; slots may change lock and bytes, and an OPEN context may close (R55, R58, R66). -/
theorem State.StoreKept.rewrites {s t : State} (hs : s.StoreKept)
    (hslots : ∀ i : SlotId, Option.Rel SlotBody.stands s.slots[i.val] t.slots[i.val])
    (hgood : ∀ (i : SlotId) d, t.slots[i.val] = some d → d.bytes.toList.any Option.isSome = true ∧
      (d.locked = true ↔ (t.ctx d.owner).state = .committing))
    (horders : ∀ d, t.order d = s.order d) (hcaps : ∀ d, t.caps.get d = s.caps.get d)
    (hactive : ∀ d, (s.ctx d).state = .opened ∨ (s.ctx d).state = .committing →
      (t.ctx d).state = .opened ∨ (t.ctx d).state = .committing)
    (hopen : ∀ d, (t.ctx d).state = .opened → (s.ctx d).state = .opened ∧ t.reads d = s.reads d) :
    t.StoreKept := by
  have hback : ∀ (i : SlotId) d, t.slots[i.val] = some d → ∃ b, s.slots[i.val] = some b ∧ b.stands d := by
    intro i d hd
    have hrel := hslots i
    rw [hd] at hrel
    cases hb : s.slots[i.val] with
    | none => simp [hb] at hrel
    | some b => exact ⟨b, rfl, by simpa [hb] using hrel⟩
  have howner : ∀ (i : SlotId) c, (∃ d, t.slots[i.val] = some d ∧ d.owner = c) ↔
      ∃ b, s.slots[i.val] = some b ∧ b.owner = c := by
    intro i c
    have hrel := hslots i
    cases hb : s.slots[i.val] <;> cases hd : t.slots[i.val] <;> simp_all [SlotBody.stands]
  have hwrites : ∀ d l, l ∈ t.writes d → l ∈ s.writes d := by
    intro d l hl
    obtain ⟨i, b, hi, hb, rfl⟩ := (t.mem_writes_iff d l).mp hl
    obtain ⟨b', hb', -, hline⟩ := hback i b hb
    exact (s.mem_writes_iff d _).mpr ⟨i, b', horders d ▸ hi, hb', hline.symm⟩
  refine ⟨⟨fun d => ?_, fun d => ?_, fun d => ?_, fun i d => ?_, fun i b hb => (hgood i b hb).1,
    fun i b hb => (hgood i b hb).2, fun i j b d hb hd hline => ?_⟩, fun d e hne hd he l hl => ?_⟩
  · exact horders d ▸ hs.store.nodup d
  · rw [horders, hcaps]
    exact hs.store.capped d
  · rw [horders]
    exact (hs.store.active d).imp_right (hactive d)
  · rw [horders, howner]
    exact hs.store.listed i d
  · obtain ⟨b', hb', -, hl⟩ := hback i b hb
    obtain ⟨d', hd', -, hl'⟩ := hback j d hd
    exact hs.store.apart i j b' d' hb' hd' (hl ▸ hl' ▸ hline)
  · obtain ⟨he', hreads⟩ := hopen e he
    obtain ⟨hread, hwrite⟩ := hs.alone d e hne (hopen d hd).1 he' l (hwrites d l hl)
    exact ⟨hreads ▸ hread, fun h => hwrite (hwrites e l h)⟩

theorem State.order_commitStart (s : State) (c : CtxId) (p : PortId) (d : CtxId) :
    (s.commitStart c p).order d = s.order d := by
  simp [State.commitStart, State.holdClose, State.leaveOpen]

theorem State.reads_commitStart (s : State) (c : CtxId) (p : PortId) (d : CtxId) :
    (s.commitStart c p).reads d = if d = c then [] else s.reads d := by
  simp [State.commitStart, State.holdClose, State.leaveOpen]

theorem State.getElem_slots_commitStart (s : State) (c : CtxId) (p : PortId) (i : SlotId) :
    (s.commitStart c p).slots[i.val] =
      if i ∈ s.order c then (s.slots[i.val]).map (fun b => { b with locked := true }) else s.slots[i.val] := by
  have h := ((s.leaveOpen c).lockSlots_eq c).2 i
  rw [Fin.getElem_fin] at h
  simpa [State.commitStart, State.holdClose, State.leaveOpen] using h

/-- Commit start locks the slots of the context, all of them and no other (R66, R69). -/
theorem State.StoreKept.commitStart {s : State} (hs : s.StoreKept) {c : CtxId} (hopen : (s.ctx c).state = .opened)
    (p : PortId) : (s.commitStart c p).StoreKept := by
  have hslots := s.getElem_slots_commitStart c p
  have hstate : ∀ d, ((s.commitStart c p).ctx d).state = if d = c then .committing else (s.ctx d).state := by
    intro d
    rw [State.ctx_commitStart]
    split <;> rfl
  refine hs.rewrites (fun i => ?_) (fun i d hd => ?_) (s.order_commitStart c p) (fun d => ?_) (fun d hd => ?_)
    fun d hd => ?_
  · rw [hslots]
    cases s.slots[i.val] <;> split <;> simp [SlotBody.stands]
  · rw [hstate]
    rw [hslots] at hd
    split at hd
    · next hi =>
      obtain ⟨b, hb, rfl⟩ := (hs.store.listed i c).mp hi
      rw [hb] at hd
      obtain rfl := Option.some.inj hd
      simpa using hs.store.written i b hb
    · next hi =>
      have hne : d.owner ≠ c := fun h => hi ((hs.store.listed i c).mpr ⟨d, hd, h⟩)
      rw [if_neg hne]
      exact ⟨hs.store.written i d hd, hs.store.locked i d hd⟩
  · simp [State.commitStart, State.holdClose, State.leaveOpen]
  · rw [hstate]
    split
    · exact .inr rfl
    · exact hd
  · rw [hstate] at hd
    rw [State.reads_commitStart]
    split at hd
    · simp at hd
    · next h => exact ⟨hd, if_neg h⟩

/-- A slot that is filled stands with other bytes, and still a written one (R55, R58). -/
theorem State.StoreKept.stores {s : State} (hs : s.StoreKept) {i : SlotId} {b : SlotBody}
    {bytes : Vector (Option StoredByte) 32} (hslot : s.slots[i.val] = some b)
    (hbytes : bytes.toList.any Option.isSome = true) :
    (s.setSlot i (some { b with bytes := bytes })).StoreKept := by
  have hslots : ∀ j : SlotId, (s.setSlot i (some { b with bytes := bytes })).slots[j.val] =
      if j = i then some { b with bytes := bytes } else s.slots[j.val] := by
    intro j
    simp [State.setSlot, Vector.getElem_set, Fin.ext_iff, eq_comm]
  refine hs.rewrites (fun j => ?_) (fun j d hd => ?_) (fun _ => rfl) (fun _ => rfl) (fun _ h => h)
    fun _ h => ⟨h, rfl⟩
  · rw [hslots]
    split
    · next h => simp [h, hslot, SlotBody.stands]
    · cases s.slots[j.val] <;> simp [SlotBody.stands]
  · rw [hslots] at hd
    split at hd
    · obtain rfl := Option.some.inj hd
      exact ⟨hbytes, hs.store.locked i b hslot⟩
    · exact ⟨hs.store.written j d hd, hs.store.locked j d hd⟩

/-! ### A line joins a read set -/

theorem State.StoreKept.joins {s : State} (hs : s.StoreKept) {c : CtxId} {l : Line}
    (hopen : (s.ctx c).state = .opened)
    (halone : l ∈ s.writes c ∨ ∀ d, d ≠ c → (s.ctx d).state = .opened → l ∉ s.writes d) :
    (s.setReads c (s.reads c ++ [l])).StoreKept := by
  refine ⟨⟨hs.store.nodup, hs.store.capped, hs.store.active, hs.store.listed, hs.store.written, hs.store.locked,
    hs.store.apart⟩, fun d e hne hd he k hk => ?_⟩
  obtain ⟨hread, hwrite⟩ := hs.alone d e hne hd he k hk
  refine ⟨?_, hwrite⟩
  rw [State.reads_setReads]
  split
  · next hec =>
    subst hec
    have hkl : k ≠ l := by
      rintro rfl
      rcases halone with hown | hothers
      · exact hwrite hown
      · exact hothers d hne hd hk
    simp [hread, hkl]
  · exact hread

/-! ### A line is staged -/

/-- A FREE slot takes a line that no OPEN footprint but its owner's read set holds and no COMMITTING context has
staged (R37, R55, R56). -/
theorem State.StoreKept.stages {s : State} (hs : s.StoreKept) {c : CtxId} {i : SlotId} {l : Line}
    {bytes : Vector (Option StoredByte) 32} (hopen : (s.ctx c).state = .opened) (hfree : s.slots[i.val] = none)
    (hroom : (s.order c).length < s.caps.get c) (hbytes : bytes.toList.any Option.isSome = true)
    (hown : l ∉ s.writes c)
    (halone : ∀ d, d ≠ c → (s.ctx d).state = .opened → l ∉ s.reads d ∧ l ∉ s.writes d)
    (hunlocked : ∀ d, (s.ctx d).state = .committing → l ∉ s.writes d) :
    ((s.setSlot i (some ⟨false, c, l, bytes⟩)).setOrder c (s.order c ++ [i])).StoreKept := by
  have hunlisted : ∀ d, i ∉ s.order d := fun d h => by
    obtain ⟨b, hb, -⟩ := (hs.store.listed i d).mp h
    simp [hfree] at hb
  have hslots : ∀ j : SlotId, ((s.setSlot i (some ⟨false, c, l, bytes⟩)).setOrder c (s.order c ++ [i])).slots[j.val] =
      if j = i then some ⟨false, c, l, bytes⟩ else s.slots[j.val] := by
    intro j
    simp [State.setSlot, Vector.getElem_set, Fin.ext_iff, eq_comm]
  have horder : ∀ d, ((s.setSlot i (some ⟨false, c, l, bytes⟩)).setOrder c (s.order c ++ [i])).order d =
      if d = c then s.order c ++ [i] else s.order d := by
    intro d
    simp
  have hnowhere : ∀ d, l ∉ s.writes d := by
    intro d h
    obtain ⟨j, b, hj, -⟩ := (s.mem_writes_iff d l).mp h
    by_cases hd : d = c
    · exact hown (hd ▸ h)
    · rcases hs.store.active d with hnil | hd' | hd'
      · simp [hnil] at hj
      · exact (halone d hd hd').2 h
      · exact hunlocked d hd' h
  have hnew : ∀ (j : SlotId) b, s.slots[j.val] = some b → b.line ≠ l := by
    rintro j b hb rfl
    exact hnowhere b.owner ((s.mem_writes_iff _ _).mpr ⟨j, b, (hs.store.listed j _).mpr ⟨b, hb, rfl⟩, hb, rfl⟩)
  have hne : ∀ d, ∀ j ∈ s.order d, j ≠ i := by
    rintro d j hj rfl
    exact hunlisted d hj
  have hwrites : ∀ d k, k ∈ ((s.setSlot i (some ⟨false, c, l, bytes⟩)).setOrder c (s.order c ++ [i])).writes d →
      k ∈ s.writes d ∨ d = c ∧ k = l := by
    intro d k hk
    obtain ⟨j, b, hj, hb, rfl⟩ := (State.mem_writes_iff _ d k).mp hk
    rw [hslots] at hb
    split at hb
    · next hji =>
      obtain rfl := Option.some.inj hb
      rw [horder] at hj
      split at hj
      · next hd => exact .inr ⟨hd, rfl⟩
      · exact absurd hji (hne d j hj)
    · next hji =>
      refine .inl ((s.mem_writes_iff d _).mpr ⟨j, b, ?_, hb, rfl⟩)
      rw [horder] at hj
      split at hj
      · next hd =>
        subst hd
        simpa [hji] using hj
      · exact hj
  refine ⟨⟨fun d => ?_, fun d => ?_, fun d => ?_, fun j d => ?_, fun j b hb => ?_, fun j b hb => ?_,
    fun j k b d hb hd hline => ?_⟩, fun d e hde hd he k hk => ?_⟩
  · rw [horder]
    split
    · exact List.nodup_append.mpr ⟨hs.store.nodup c, by simp, fun a ha b hb => by
        rw [List.mem_singleton.mp hb]
        exact hne c a ha⟩
    · exact hs.store.nodup d
  · rw [horder]
    split
    · next hd => simpa [hd] using hroom
    · exact hs.store.capped d
  · by_cases hd : d = c
    · exact .inr (.inl (hd ▸ hopen))
    · rw [horder, if_neg hd]
      exact hs.store.active d
  · rw [horder, hslots]
    by_cases hji : j = i
    · subst hji
      by_cases hd : d = c
      · simp [hd]
      · simp [hd, hunlisted d, Ne.symm hd]
    · rw [if_neg hji, ← hs.store.listed j d]
      split
      · next hd => simp [hd, hji]
      · rfl
  · rw [hslots] at hb
    split at hb
    · obtain rfl := Option.some.inj hb
      exact hbytes
    · exact hs.store.written j b hb
  · rw [hslots] at hb
    split at hb
    · obtain rfl := Option.some.inj hb
      simp [hopen]
    · exact hs.store.locked j b hb
  · rw [hslots] at hb hd
    split at hb <;> split at hd
    · next hj hk => exact hj.trans hk.symm
    · obtain rfl := Option.some.inj hb
      exact absurd hline.symm (hnew k d hd)
    · obtain rfl := Option.some.inj hd
      exact absurd hline (hnew j b hb)
    · exact hs.store.apart j k b d hb hd hline
  · have hreads : k ∉ s.reads e ∧ k ∉ s.writes e := by
      rcases hwrites d k hk with hk | ⟨rfl, rfl⟩
      · exact hs.alone d e hde hd he k hk
      · exact halone e (Ne.symm hde) he
    refine ⟨hreads.1, fun h => ?_⟩
    rcases hwrites e k h with hk' | ⟨rfl, rfl⟩
    · exact hreads.2 hk'
    · rcases hwrites d k hk with hk | ⟨rfl, -⟩
      · exact hnowhere d hk
      · exact hde rfl

/-- With every list empty, every slot FREE and no group OPEN all of it holds. -/
theorem State.StoreKept.bare_all {s : State} (horders : ∀ c, s.order c = []) (hslots : ∀ i : SlotId, s.slots[i.val] = none)
    (hctx : ∀ c, (s.ctx c).state ≠ .opened) : s.StoreKept := by
  refine ⟨⟨fun c => ?_, fun c => ?_, fun c => .inl (horders c), fun i c => ?_, fun i b hb => ?_, fun i b hb => ?_,
    fun i j b d hb => ?_⟩, fun c d _ hc => absurd hc (hctx c)⟩
  · simp [horders]
  · simp [horders]
  · simp [horders, hslots]
  · simp [hslots] at hb
  · simp [hslots] at hb
  · simp [hslots] at hb

/-! ### Every effect keeps them -/

theorem storeKept_kept (s t : State) (h : State.Effect s t) (hmatch : s.jobsMatch) (hreads : s.readsBounded)
    (hs : s.StoreKept) : t.StoreKept := by
  cases h with
  | port h =>
    obtain ⟨hctxs, -, hr, hslots, horders, hcaps, -⟩ := h.frame
    exact hs.frame hslots (fun c => by simp [State.order, horders]) (fun c => by rw [hcaps])
      (fun c => by simp [State.reads, hr]) fun c => .inl (by rw [State.ctx_congr hctxs])
  | abort c code cause party => exact hs.takeAbort c code cause party
  | count c life cycles =>
    exact hs.set rfl (fun _ => rfl) (fun _ => rfl) (fun _ => rfl) (State.ctx_setCtx s c · _) (.inl rfl)
  | countCycle c cycles =>
    exact hs.set rfl (fun _ => rfl) (fun _ => rfl) (fun _ => rfl) (State.ctx_setCtx s c · _) (.inl rfl)
  | enter c arg =>
    exact hs.set rfl (fun _ => rfl) (fun _ => rfl) (fun _ => rfl) (State.ctx_setCtx s c · _) (.inl rfl)
  | leave c =>
    exact hs.set rfl (fun _ => rfl) (fun _ => rfl) (fun _ => rfl) (State.ctx_setCtx s c · _) (.inl rfl)
  | release c =>
    exact hs.set rfl (fun _ => rfl) (fun _ => rfl) (fun _ => rfl) (State.ctx_setCtx s c · _) (.inl rfl)
  | start c arg rec hidle =>
    exact hs.set (c := c) (x := (s.ctx c).started arg rec) (by simp) (by simp) (by simp) (by simp) (fun d => by simp)
      (.inr (hs.bare hreads (by simp [hidle]) (by simp [hidle])))
  | close c hopen hempty =>
    refine hs.frees (c := c) (fun i => ?_) (fun d => ?_) (by simp [State.leaveOpen]) (fun d hd => ?_) ?_ fun d hd => ?_
    · simp [State.leaveOpen, hempty]
    · by_cases hd : d = c <;> simp [State.leaveOpen, hd, hempty]
    · simp [State.leaveOpen, hd]
    · simp [State.leaveOpen]
    · simp [State.leaveOpen, hd]
  | commit c p hopen => exact hs.commitStart hopen p
  | hold c p =>
    exact hs.set (c := c) (x := { s.ctx c with held := some p }) (by simp [State.holdClose]) (by simp [State.holdClose])
      (by simp [State.holdClose]) (by simp [State.holdClose]) (fun d => by simp [State.holdClose]) (.inl rfl)
  | clear c hdoomed =>
    exact hs.set (by simp) (by simp) (by simp) (by simp) (State.ctx_idle s c)
      (.inr (hs.bare hreads (by simp [hdoomed]) (by simp [hdoomed])))
  | join c l hopen hnew hroom halone => exact hs.joins hopen halone
  | stage c i l bytes hopen hfree hroom hbytes hown halone hunlocked =>
    exact hs.stages hopen hfree hroom hbytes hown halone hunlocked
  | store i b bytes hslot hbytes => exact hs.stores hslot (hbytes (hs.store.written i b hslot))
  | commitDone j rest failed hjobs hkind =>
    have hcommit := State.committing_of_head hmatch hjobs hkind
    exact hs.frees (c := j.ctx) (by simp) (by simp) (by simp) (fun d _ => by simp [State.reads]) (by simp)
      fun d hd => by simp [hd]
  | recordDone j rest skipped bad hjobs hkind =>
    have haborting := State.aborting_of_head hmatch hjobs hkind
    exact hs.set (by simp) (fun c => by simp [State.order]) (by simp) (fun c => by simp [State.reads])
      (State.ctx_recordFinish (s.setJobs rest) j.ctx skipped bad)
      (.inr (hs.bare hreads (by simp [haborting]) (by simp [haborting])))
  | escalation t w =>
    obtain ⟨hctxs, -, hr, hslots, horders, hcaps, -⟩ := s.setEscalation_frame t w
    exact hs.frame hslots (fun c => by simp [State.order, horders]) (fun c => by rw [hcaps])
      (fun c => by simp [State.reads, hr]) fun c => .inl (by rw [State.ctx_congr hctxs])
  | caps v hidle =>
    have hbare : ∀ c, s.order c = [] ∧ s.reads c = [] := fun c =>
      hs.bare hreads (by simp [hidle c]) (by simp [hidle c])
    have hcapped : ∀ c, (s.order c).length ≤ v.get c := fun c => by simp [hbare c]
    exact ⟨{ hs.store with capped := hcapped }, hs.alone⟩
  | drain hrun =>
    exact State.enterDraining_keeps (P := State.StoreKept) (fun u c _ hu => hu.takeAbort c _ _ _)
      (fun _ _ h => ⟨{ h.store with }, h.alone⟩) (fun _ _ h => ⟨{ h.store with }, h.alone⟩) hs
  | portGone p =>
    obtain ⟨-, hr, hslots, horders, hcaps, -⟩ := s.portGone_frame p
    refine hs.frame hslots (fun c => by simp [State.order, horders]) (fun c => by rw [hcaps])
      (fun c => by simp [State.reads, hr]) fun c => .inl ?_
    rw [State.ctx_portGone]
    split <;> simp
  | partReset straps =>
    refine State.StoreKept.bare_all (fun c => Four.get_same _ c) (fun i => ?_) fun c => ?_
    · simp [State.afterPartReset]
    · simp [State.ctx, State.afterPartReset, Context.reset]
  | pairing a b => exact ⟨{ hs.store with }, hs.alone⟩
  | _ => exact hs.frame (by simp) (by simp) (by simp) (by simp) fun c => .inl (by simp)

/-- Settles O59: every effect keeps store and staged lines, the job queue being matched and the read sets bounded. -/
theorem stepKeepsStagedLinesAlone : Obligations.StepKeepsStagedLinesAlone := by
  intro s t hmatch hreads hstore halone hstep
  have ht := step_keeps (P := fun u => u.jobsMatch = true ∧ u.readsBounded = true ∧ u.StoreKept)
    (fun u v h ⟨hm, hr, hk⟩ => ⟨jobsMatch_kept u v h hm, readsBounded_kept u v h hm hr, storeKept_kept u v h hm hr hk⟩)
    ⟨hmatch, hreads, (State.storeFormed_iff s).mp hstore, (State.writesAlone_iff s).mp halone⟩ hstep
  obtain ⟨-, -, hstore', halone'⟩ := ht
  exact ⟨(State.storeFormed_iff t).mpr hstore', (State.writesAlone_iff t).mpr halone'⟩

end Sys2Proof.Machine
end

section
/-! Nothing left to do at once (R73, R165): every step leaves the bridge settled. -/

namespace Sys2Proof.Machine

/-- A settled state stays settled when neither the bus nor what the arbiter reads becomes another. -/
theorem State.settled_of_quiet {s t : State} (h : s.settled) (hb : t.bus = s.bus) (hr : t.reqs = s.reqs)
    (hp : t.pointer = s.pointer) (hj : t.jobs = s.jobs) (hq : ∀ q, (t.port q).pair = (s.port q).pair) : t.settled := by
  rw [State.settled_congr hb hr hp hj hq]
  exact h

/-- With nobody to be granted and no job a state is settled. -/
theorem State.settled_of_empty {s : State} (hreqs : ∀ p, s.reqs.get p = none) (hjobs : s.jobs = []) : s.settled := by
  have hstands : ∀ r, s.stands r = false := by
    intro r
    cases r <;> simp [State.stands, State.engineReq, hreqs, hjobs]
  have hwinner : s.winner = none := by
    cases h : s.winner with
    | none => rfl
    | some r =>
      have hr := State.winner_stands h
      simp [hstands] at hr
  simp [State.settled, hwinner, hjobs]

/-- A port changed without a change of its pair is not felt. -/
theorem State.setPort_settled {s : State} (h : s.settled) {p : PortId} {x : PortState}
    (hpair : x.pair = (s.port p).pair) : (s.setPort p x).settled := by
  refine State.settled_of_quiet h rfl rfl rfl rfl fun q => ?_
  rw [State.port_setPort]
  split
  · next hq => rw [hpair, hq]
  · rfl

theorem State.cycle_settled {s : State} (h : s.settled) (p : PortId) (f : State → State) : (s.cycle p f).settled := by
  unfold State.cycle
  split
  · exact State.settle_settled _
  · exact h

theorem State.received_settled {s : State} (h : s.settled) (p : PortId) (r : RawCycle)
    (take : RawCycle → State → State) : (s.received p r take).settled := by
  unfold State.received
  split
  · unfold State.setCycle
    exact State.setPort_settled h rfl
  · exact State.settle_settled _

theorem State.arrive_settled {s : State} (h : s.settled) (p : PortId) (r : RawCycle)
    (take : RawCycle → State → State) : (s.arrive p r take).settled := by
  unfold State.arrive
  split
  · exact h
  · split
    · refine State.received_settled ?_ p r take
      unfold State.beginCycle
      exact State.setPort_settled h rfl
    · split
      · exact State.received_settled h p _ take
      · exact h
    · exact h

theorem State.answerNext_settled {s : State} (h : s.settled) (p : PortId) : (s.answerNext p).settled := by
  unfold State.answerNext
  split
  · rw [State.giveBeats_eq]
    exact State.setPort_settled h rfl
  · exact h

theorem State.answerAll_settled {s : State} (h : s.settled) : s.answerAll.settled :=
  foldl_invariant (fun t => t.settled = true) _ four (fun _ p _ ht => State.answerNext_settled ht p) s h

theorem State.partClock_settled {s : State} (h : s.settled) : s.partClock.settled := by
  unfold State.partClock State.divisorClock
  split_ifs
  · exact h
  · exact State.answerAll_settled h
  · exact State.answerAll_settled h
  · exact State.settle_settled _

theorem exec_settled (i : Instr) (s t : State) (hs : s.settled) (h : exec i s = .next t) : t.settled := by
  cases i with
  | memWrite p addr data =>
    obtain rfl := Host.Outcome.next.inj h
    exact State.arrive_settled hs p _ _
  | malformedCycle p raw =>
    obtain rfl := Host.Outcome.next.inj h
    split_ifs
    · exact hs
    · exact State.arrive_settled hs p raw _
    · exact State.cycle_settled hs p _
  | portReset p =>
    obtain rfl := Host.Outcome.next.inj h
    split
    · exact hs
    · exact State.settle_settled _
  | partReset straps =>
    obtain rfl := Host.Outcome.next.inj h
    exact State.settled_of_empty (fun p => Four.get_same _ p) rfl
  | qreqAsserted =>
    obtain rfl := Host.Outcome.next.inj h
    split
    · exact hs
    · exact State.settle_settled _
  | qreqNegated =>
    obtain rfl := Host.Outcome.next.inj h
    exact hs
  | tick cause =>
    obtain rfl := Host.Outcome.next.inj h
    split
    · exact hs
    · cases cause <;> exact State.settle_settled _
  | lifetimeExpiry c =>
    obtain rfl := Host.Outcome.next.inj h
    split
    · exact State.settle_settled _
    · exact hs
  | windowExpiry =>
    obtain rfl := Host.Outcome.next.inj h
    split
    · exact State.settled_of_quiet hs (by simp) (by simp) (by simp) (by simp) (by simp)
    · exact hs
  | storageFault i k flip flipPar =>
    obtain rfl := Host.Outcome.next.inj h
    split <;> exact hs
  | grant =>
    obtain rfl := Host.Outcome.next.inj h
    simp only [State.settled, Bool.and_eq_true] at hs
    rw [State.arbitrate_of_closed hs.1]
    simp only [State.settled, Bool.and_eq_true]
    exact hs
  | memoryBeatAnswer xerr data par =>
    obtain rfl := Host.Outcome.next.inj h
    exact State.settle_settled _
  | jobStart =>
    obtain rfl := Host.Outcome.next.inj h
    exact State.settle_settled _
  | portResetRelease p =>
    obtain rfl := Host.Outcome.next.inj h
    exact State.setPort_settled hs rfl
  | partResetRelease =>
    obtain rfl := Host.Outcome.next.inj h
    split
    · exact State.settle_settled _
    · exact hs
  | tickPinFall =>
    obtain rfl := Host.Outcome.next.inj h
    split <;> exact hs
  | markOpen | markClose | markDrop | markRecAddr | markStatus | markGetCfg | setCfgRegion | setCfgPairing
  | setCfgLifetime | setCfgSlotCaps | setCfgEscalation | setCfgTickSource | setCfgFaultMasks | setCfgUndefinedItem
  | memRead | lockRead | lockWrite =>
    obtain rfl := Host.Outcome.next.inj h
    exact State.cycle_settled hs _ _

/-- Settles O53: what settles at the end of a claim is settled, and every other change is one that neither the bus nor
the arbiter feels. -/
theorem stepKeepsTheBridgeSettled : Obligations.StepKeepsTheBridgeSettled := by
  intro s t hs h
  unfold step at h
  split at h
  · obtain rfl := Host.Outcome.next.inj h
    exact State.partClock_settled hs
  · next c rest _ => exact exec_settled c { s with pending := rest } t hs h

end Sys2Proof.Machine
end

section
/-! What holds after reset, and the step, the ends of reset, the expiries and the storage fault: each has at most a
condition to look at. -/

namespace Sys2Proof.Machine

/-- Settles O60: each property reads only what reset sets to one value, whatever the straps, so each evaluates. -/
theorem resetMeetsTheInvariants : Obligations.ResetMeetsTheInvariants := by
  rintro st _ rfl
  have hempty : (State.afterPartReset st).settled := State.settled_of_empty (fun p => Four.get_same _ p) rfl
  have hjobs : (State.afterPartReset st).jobsMatch ∧ (State.afterPartReset st).tailWaits := ⟨rfl, rfl⟩
  have hgroups : (State.afterPartReset st).contextsFormed ∧ (State.afterPartReset st).agesMatch ∧
      (State.afterPartReset st).readsBounded ∧ (State.afterPartReset st).countsBounded := ⟨rfl, rfl, rfl, rfl⟩
  have hstore : (State.afterPartReset st).storeFormed ∧ (State.afterPartReset st).writesAlone := ⟨rfl, rfl⟩
  have hports : (State.afterPartReset st).heldMatch ∧ (State.afterPartReset st).requestsOwned ∧
      (State.afterPartReset st).pairsApart := ⟨rfl, rfl, rfl⟩
  exact ⟨hempty, hjobs.1, hjobs.2, hgroups.1, hgroups.2.1, hgroups.2.2.1, hgroups.2.2.2, rfl, rfl, hstore.1, hstore.2,
    hports⟩

/-! ### The step -/

theorem step_of_cons {s : State} {i : Instr} {rest : List Instr} (h : s.pending = i :: rest) :
    step s = exec i { s with pending := rest } := by
  rw [step, h]

theorem step_of_nil {s : State} (h : s.pending = []) : step s = .next s.partClock := by
  rw [step, h]

/-- Settles O1. -/
theorem stepRunsTheFrontCommand : Obligations.StepRunsTheFrontCommand := fun _ _ _ h => step_of_cons h

/-- The response of a part clock at one port: the next of those left, the cycle over with the last. -/
theorem State.port_answerNext_of_answering {s : State} {p : PortId} {k : BitVec 3} {a : Addr} {n : BitVec 2}
    {left : List Answer} (h : (s.port p).cycle = some ⟨k, a, n, .answering left⟩) :
    (s.answerNext p).port p =
      { s.port p with
        cycle := if left.tail = [] then none else some ⟨k, a, n, .answering left.tail⟩
        answers := (s.port p).answers ++ left.take 1 } := by
  simp [State.answerNext, h, State.giveBeats_eq]

/-- A state with the ports that each of them has after its next response is the one after all responses. -/
theorem State.answerAll_eq {s t : State} (h : t = { s with ports := t.ports })
    (hport : ∀ p, t.port p = (s.answerNext p).port p) : s.answerAll = t := by
  have hports : s.answerAll.ports = t.ports := Four.ext_get fun p => by
    have hp : s.answerAll.port p = t.port p := by rw [State.port_answerAll, hport]
    exact hp
  rw [s.answerAll_frame, hports]
  exact h.symm

theorem exec_tick_divisor {s : State} (h : s.rst = false) : exec (.tick .divisor) s = .next s.divisorTick.settle := by
  change Host.Outcome.next _ = _
  rw [h]
  rfl

/-- Settles O2: the responses of a part clock make the state that the statement names, and the divisor follows. -/
theorem emptyQueueStepIsOneClock : Obligations.EmptyQueueStepIsOneClock := by
  intro s t hnil hframe hports
  have hport : ∀ p, t.port p = (s.answerNext p).port p := by
    intro p
    obtain ⟨hother, hlast, hnext⟩ := hports p
    by_cases hanswers : ∃ k a n left, (s.port p).cycle = some ⟨k, a, n, .answering left⟩
    · obtain ⟨k, a, n, left, hy⟩ := hanswers
      rw [State.port_answerNext_of_answering hy]
      cases left with
      | nil => simpa using hlast k a n hy
      | cons x rest =>
        rw [hnext k a n x rest hy]
        by_cases hrest : rest = [] <;> simp [hrest]
    · have hnot : ∀ y, (s.port p).cycle = some y → ∀ left, y.phase ≠ .answering left := by
        rintro ⟨k, a, n, ph⟩ hy left rfl
        exact hanswers ⟨k, a, n, left, hy⟩
      rw [hother fun y left hy => hnot y hy left, State.answerNext_of_not hnot]
  have hall : s.answerAll = t := State.answerAll_eq hframe hport
  have hsource : t.tickSource = s.tickSource := by rw [hframe]
  have hdivisor : t.divisor = s.divisor := by rw [hframe]
  have hrst : t.rst = s.rst := by rw [hframe]
  rw [step_of_nil hnil, State.partClock, hall]
  refine ⟨fun h => ?_, fun h h7 => ?_, fun h h7 hlt => ?_, fun h h7 hge => ?_⟩
  · rw [if_pos h]
  · rw [if_neg (by simp [h]), State.divisorClock, if_pos (hsource ▸ h7)]
  · rw [if_neg (by simp [h]), State.divisorClock, if_neg (hsource ▸ h7), hsource, hdivisor, clocksPerTick, if_pos hlt]
  · rw [if_neg (by simp [h]), State.divisorClock, if_neg (hsource ▸ h7), hsource, hdivisor, clocksPerTick,
      if_neg hge.not_gt, exec_tick_divisor (hrst.trans h)]

/-! ### Part reset and the ends of reset -/

/-- With no region the kind of every line is PASS, and with one TRACKED region over all memory it is TRACKED. -/
theorem State.kindOf_afterPartReset {t : State} {trkall : Bool} (h : t.regions = regionsAtReset trkall) (l : Line) :
    t.kindOf l = if trkall then .tracked else .pass := by
  have hl := l.isLt
  cases trkall with
  | false => exact (t.kindOf_eq l).1 fun k r hk => by simp [h, regionsAtReset] at hk
  | true =>
    refine (t.kindOf_eq l).2 0 ⟨0, 28, .tracked⟩ (by rw [h]; rfl) ?_ fun j o hj ho => ?_
    · simp [Region.holds, Region.lines]
      omega
    · have hj' : j.val ≠ 0 := fun h0 => hj (Fin.ext h0)
      simp [h, regionsAtReset, hj'.symm] at ho

/-- Settles O3: part reset is written out as the values that the statement names. -/
theorem partResetSetsEveryBlock : Obligations.PartResetSetsEveryBlock := by
  intro st s
  refine ⟨_, rfl, fun c => Four.get_same _ c, fun p => by fin_cases p <;> rfl, fun c => ⟨Four.get_same _ c,
    Four.get_same _ c, Four.get_same _ c, Four.get_same _ c, Four.get_same _ c⟩, fun i => ?_, fun p => Four.get_same _ p,
    rfl, rfl, rfl, rfl, rfl, rfl, rfl, rfl, rfl, rfl, rfl, fun h => ⟨?_, fun k hk => ?_⟩, fun h k => ?_,
    State.kindOf_afterPartReset rfl, rfl, rfl, rfl, rfl, rfl, rfl, rfl, rfl, rfl⟩
  · simp [State.afterPartReset]
  · simp [State.afterPartReset, regionsAtReset, h]
  · have hk' : k.val ≠ 0 := fun h0 => hk (Fin.ext h0)
    simp [State.afterPartReset, regionsAtReset, h, hk'.symm]
  · simp [State.afterPartReset, regionsAtReset, h]

theorem exec_partResetRelease (s : State) : exec .partResetRelease s =
    .next (if s.rst then (if s.qreq then ({ s with rst := false } : State).quiesceRequest else { s with rst := false }).settle
      else s) := rfl

theorem State.openCtxs_eq_nil {s : State} (h : ∀ c, (s.ctx c).state ≠ .opened) : s.openCtxs = [] := by
  simp [State.openCtxs, h]

/-- With no group OPEN a quiesce request aborts none, and the drain condition alone tells the bridge state (R182,
R183). -/
theorem State.quiesceRequest_of_none_open {s : State} (hrun : s.bridge = .running)
    (h : ∀ c, (s.ctx c).state ≠ .opened) :
    s.quiesceRequest = s.setBridge (if s.drained then .quiesced else .draining) := by
  have hopen : (s.setBridge .draining).openCtxs = [] := State.openCtxs_eq_nil h
  rw [State.quiesceRequest, if_pos hrun, State.enterDraining]
  simp only [hopen, State.abortAll_none, State.drainTest_eq]
  have hdrained : (s.setBridge .draining).drained = s.drained := rfl
  rw [hdrained]
  simp [State.setBridge]

/-- Settles O4. -/
theorem resetReleases : Obligations.ResetReleases := by
  refine ⟨fun s => ⟨fun h => ?_, fun h hs hq => ?_, fun h hs hq hb hj hidle => ?_⟩, fun s p => ⟨rfl, fun h hc => ?_⟩⟩
  · rw [exec_partResetRelease, h]
    rfl
  · rw [exec_partResetRelease, if_pos h, if_neg (by simp [hq])]
    exact congrArg Host.Outcome.next (State.settle_of_quiet hs rfl rfl rfl rfl fun _ => rfl)
  · have hnone : ∀ c, (({ s with rst := false } : State).ctx c).state ≠ .opened := fun c hc => by
      exact absurd ((hidle c).symm.trans hc) (by decide)
    have hdrained : ({ s with rst := false } : State).drained = true :=
      (State.drained_iff _).mpr ⟨hj, fun c => .inl (hidle c)⟩
    rw [exec_partResetRelease, if_pos h, if_pos hq, State.quiesceRequest_of_none_open (s := { s with rst := false }) hb hnone,
      hdrained]
    exact congrArg Host.Outcome.next (State.settle_of_quiet hs rfl rfl rfl rfl fun _ => rfl)
  · simp [State.takesCycle, h, hc]

/-! ### Expiries when due -/

theorem State.lifetimeDue_iff (s : State) (c : CtxId) : s.lifetimeDue c = true ↔
    (s.ctx c).state = .opened ∧ (s.lifetimes.get c).limit ≠ 0 ∧
      (s.ctx c).lifetime = (s.lifetimes.get c).limit.toNat := by
  simp [State.lifetimeDue, and_assoc]

theorem exec_lifetimeExpiry (c : CtxId) (s : State) : exec (.lifetimeExpiry c) s =
    .next (if s.lifetimeDue c then (s.abort c .timeout).settle else s) := rfl

theorem exec_windowExpiry (s : State) : exec .windowExpiry s =
    .next (if s.token ≠ .free ∧ s.window = some 0 then s.windowExpires else s) := rfl

/-- Settles O41: each expiry by its own condition. -/
theorem expiriesWhenDue : Obligations.ExpiriesWhenDue := by
  refine ⟨fun s c => ⟨fun hopen hlimit hlife => ?_, fun hnot => ?_⟩, fun s => ⟨fun hnot => ?_, fun howned hw hq => ?_,
    fun h r howned hw hq hthreshold hlen => ?_⟩⟩
  · rw [exec_lifetimeExpiry, if_pos ((s.lifetimeDue_iff c).mpr ⟨hopen, hlimit, hlife⟩), State.abort_open hopen]
  · have hdue : ¬ s.lifetimeDue c := by
      rw [State.lifetimeDue_iff]
      tauto
    rw [exec_lifetimeExpiry, if_neg hdue]
  · rw [exec_windowExpiry, if_neg (by tauto)]
  · rw [exec_windowExpiry, if_pos ⟨howned, hw⟩, State.windowExpires_of_queue_nil hq]
  · have hon : s.escalationOn := by simpa [State.escalationOn] using And.intro hthreshold hlen
    rw [exec_windowExpiry, if_pos ⟨howned, hw⟩, State.windowExpires_of_queue_cons hon hq]
    rfl

/-! ### Storage faults -/

theorem State.setSlot_self {s : State} {i : SlotId} {b : Option SlotBody} (h : s.slots[i.val] = b) :
    s.setSlot i b = s := by
  subst h
  simp [State.setSlot]

/-- Settles O49, by what the slot and the byte hold. -/
theorem storageFaultChangesAByte : Obligations.StorageFaultChangesAByte := by
  intro s i o flip flipPar
  have hexec : exec (.storageFault i o flip flipPar) s = .next (match s.slots[i] with
    | some b => s.setSlot i (some { b with
        bytes := b.bytes.set o ((b.bytes[o]).map fun x => x.upset flip flipPar) })
    | none => s) := rfl
  refine ⟨fun b y hb hy => ?_, fun hb => ?_, fun b hb hy => ?_⟩
  · rw [hexec, hb]
    simp only [hy]
    rfl
  · rw [hexec, hb]
  · rw [hexec, hb]
    have hsame : b.bytes.set o ((b.bytes[o]).map fun x => x.upset flip flipPar) = b.bytes := by
      ext1 k hk
      by_cases hko : o.val = k <;> simp_all
    simp only [hsame]
    exact congrArg Host.Outcome.next (State.setSlot_self hb)

end Sys2Proof.Machine
end

section
/-! OPEN and CLOSE (R12 to R18): a mark taken at a free port, and what it does by the state of its context. -/

namespace Sys2Proof.Machine

/-! ### Answers at a port -/

section
variable (s : State) (p : PortId) (as bs : List Answer)

theorem State.pair_answered (q : PortId) : ((s.answered p as).port q).pair = (s.port q).pair := by
  rw [State.port_answered]
  split
  · next h => rw [h]
  · rfl

theorem State.pendRec_answered : ((s.answered p as).port p).pendRec = (s.port p).pendRec := by simp

@[simp] theorem State.respond_answered : (s.answered p as).respond p bs = s.answered p (as ++ bs) := by
  simp [State.respond, State.answered, State.setPort, State.port]

/-- Answers given to a cycle just begun, as its state says them. -/
theorem State.answered_eq_respond : s.answered p as = (s.answered p []).respond p as := by simp

theorem State.respond_setFlag_answered (f : Flag) :
    ((s.answered p []).setFlag p f).respond p as = s.flagged p f as := by
  simp [State.respond, State.answered, State.flagged, State.setFlag, State.setPort, State.port]

theorem State.pair_setCycle (y : Option Cycle) (q : PortId) :
    ((s.setCycle p y).port q).pair = (s.port q).pair := by
  rw [State.port_setCycle]
  split
  · next h => rw [h]
  · rfl

theorem State.answered_settled (h : s.settled) : (s.answered p as).settled := State.setPort_settled h rfl

/-- Answers are nothing that the arbiter reads. -/
theorem State.settle_answered (h : s.settled) : (s.answered p as).settle = s.answered p as :=
  State.settle_of_settled (s.answered_settled p as h)

/-! Answers are given at the port alone: they come before or after a notice to the Contention Unit alike. -/

theorem State.grantToken_respond : (s.respond p as).grantToken = s.grantToken.respond p as := by
  have hon : (s.respond p as).escalationOn = s.escalationOn := rfl
  unfold State.grantToken
  simp only [State.respond_frame, hon]
  split
  · split <;> rfl
  · rfl

theorem State.commitNotice_respond (c : CtxId) : (s.respond p as).commitNotice c = (s.commitNotice c).respond p as := by
  have hnotice : ∀ t : State, t.commitNotice c =
      if t.token = .held c then ((t.setCounter c 0).freeToken).grantToken else t.setCounter c 0 := fun _ => rfl
  have htoken : (s.respond p as).token = s.token := rfl
  rw [hnotice, hnotice, htoken]
  split
  · exact ((s.setCounter c 0).freeToken).grantToken_respond p as
  · rfl

end

/-- What a claim leaves is the step's result, when it is nothing that the arbiter feels. -/
theorem next_settle_of_quiet {s t u : State} (h : s.settled) (heq : t = u) (hb : u.bus = s.bus)
    (hr : u.reqs = s.reqs) (hp : u.pointer = s.pointer) (hj : u.jobs = s.jobs)
    (hq : ∀ q, (u.port q).pair = (s.port q).pair) :
    (Host.Outcome.next t.settle : Host.Outcome State Fault Refusal) = .next u := by
  rw [heq, State.settle_of_quiet h hb hr hp hj hq]

/-! ### Result words -/

/-- The result word of an abort whose code is not transient. -/
theorem abortResult_lasting {code : AbortCode} (h : code.transient = false) (depth : Nat) :
    abortResult .aborted (some code) depth = (field 6 0 ||| field depth 4 ||| field code.num.toNat 8) := by
  simp [abortResult, h, bitField, MarkOutcome.num]

/-! ### OPEN at a free port -/

theorem exec_markOpen_of_free {s : State} {p : PortId} (h : s.free p) (arg : Arg) :
    exec (.markOpen p arg) s = .next ((s.answered p []).takeOpen p arg).settle := by
  obtain ⟨_, hpair⟩ := (s.free_iff p).mp h
  have hpair' : ((s.answered p []).port p).pair = none := by simp [hpair]
  have hexec : exec (.markOpen p arg) s = .next (s.cycle p fun t => t.openCycle p arg) := rfl
  rw [hexec, State.cycle_of_free h, State.openCycle, State.breakPair_of_no_pair hpair']

theorem exec_markClose_of_free {s : State} {p : PortId} (h : s.free p) (arg : Arg) :
    exec (.markClose p arg) s = .next ((s.answered p []).takeClose p arg).settle := by
  obtain ⟨_, hpair⟩ := (s.free_iff p).mp h
  have hpair' : ((s.answered p []).port p).pair = none := by simp [hpair]
  have hexec : exec (.markClose p arg) s = .next (s.cycle p fun t => t.closeCycle p arg) := rfl
  rw [hexec, State.cycle_of_free h, State.closeCycle, State.breakPair_of_no_pair hpair']

theorem openArgLegal_iff (arg : Arg) : openArgLegal arg = true ↔ arg.extractLsb' 2 2 ≠ 3 ∧ arg.extractLsb' 4 12 = 0 := by
  have hnotice : argNotice arg = 3 ↔ arg.extractLsb' 2 2 = 3 := BitVec.toNat_inj (y := 3)
  simp [openArgLegal, hnotice]

section
variable {s : State} {p : PortId} {c : CtxId} {arg : Arg}

/-- OPEN by a RUNNING bridge goes by the state of its context, which is not on hold (R12). -/
theorem State.takeOpen_of_idle (hserving : s.serving p = c) (hrun : s.bridge = .running)
    (hidle : (s.ctx c).state = .idle) : s.takeOpen p arg = s.outermostOpen c p arg := by
  subst hserving
  simp [State.takeOpen, State.onHold, hrun, hidle]

theorem State.takeOpen_of_opened (hserving : s.serving p = c) (hrun : s.bridge = .running)
    (hopen : (s.ctx c).state = .opened) : s.takeOpen p arg = s.innerOpen c p arg := by
  subst hserving
  simp [State.takeOpen, State.onHold, hrun, hopen]

/-- On hold an OPEN collides (R11). -/
theorem State.takeOpen_of_hold (hhold : (s.ctx (s.serving p)).state = .committing ∨ (s.ctx (s.serving p)).state = .aborting) :
    s.takeOpen p arg = s.collideRead p := by
  simp [State.takeOpen, (s.onHold_iff _).mpr hhold]

/-- Outside RUNNING an OPEN that does not collide is answered QUIESCED (R12). -/
theorem State.takeOpen_of_not_running (hcommitting : (s.ctx (s.serving p)).state ≠ .committing)
    (haborting : (s.ctx (s.serving p)).state ≠ .aborting) (hrun : s.bridge ≠ .running) :
    s.takeOpen p arg = s.result p (plainResult .quiesced) := by
  simp [State.takeOpen, State.onHold, hcommitting, haborting, hrun]

theorem State.takeOpen_of_doomed (hrun : s.bridge = .running) (hdoomed : (s.ctx (s.serving p)).state = .doomed) :
    s.takeOpen p arg =
      s.result p (abortResult .doomed (s.ctx (s.serving p)).lastCode (s.ctx (s.serving p)).depth) := by
  simp [State.takeOpen, State.onHold, hrun, hdoomed]

/-! CLOSE: the checks in order (R15, R17). -/

theorem State.takeClose_of_collides (h : (s.ctx (s.serving p)).state = .committing ∨
    (s.ctx (s.serving p)).state = .aborting ∧ (s.ctx (s.serving p)).held ≠ none) :
    s.takeClose p arg = s.collideRead p := by
  rw [State.takeClose, if_pos (by simpa [Option.isSome_iff_ne_none] using h)]

theorem State.takeClose_of_argument (hcommitting : (s.ctx (s.serving p)).state ≠ .committing)
    (hheld : ¬ ((s.ctx (s.serving p)).state = .aborting ∧ (s.ctx (s.serving p)).held ≠ none)) (harg : arg ≠ 0) :
    s.takeClose p arg = s.result p (plainResult .spec) := by
  rw [State.takeClose, if_neg (by simpa [Option.isSome_iff_ne_none, hcommitting] using hheld), if_pos harg]

theorem State.takeClose_of_idle (hidle : (s.ctx (s.serving p)).state = .idle) :
    s.takeClose p 0 = s.result p (plainResult .notOpen) := by
  simp [State.takeClose, hidle]

theorem State.takeClose_of_doomed (hdoomed : (s.ctx (s.serving p)).state = .doomed) :
    s.takeClose p 0 = (s.idle (s.serving p)).result p
      (abortResult .aborted (s.ctx (s.serving p)).lastCode (s.ctx (s.serving p)).depth) := by
  simp [State.takeClose, hdoomed]

theorem State.takeClose_of_aborting (haborting : (s.ctx (s.serving p)).state = .aborting)
    (hheld : (s.ctx (s.serving p)).held = none) : s.takeClose p 0 = s.holdClose (s.serving p) p := by
  simp [State.takeClose, haborting, hheld]

end

theorem State.openNotice_eq (s : State) (c : CtxId) (bounded : Bool) : s.openNotice c bounded =
    s.setToken (if s.token = .reserved c ∧ bounded = true then .held c else s.token)
      (if s.token = .reserved c ∧ bounded = true then s.windowFromW else s.window) := by
  by_cases h : s.token = .reserved c ∧ bounded = true
  · simp [State.openNotice, h]
  · have hnot : ¬ ((s.token = .reserved c && bounded) = true) := by simpa using h
    rw [State.openNotice, if_neg hnot, if_neg h, if_neg h]
    rfl

theorem levelOf_outer (arg : Arg) :
    levelOf arg false = ⟨arg.getLsbD 0, arg.getLsbD 1, (arg.extractLsb' 2 2).toNat⟩ := by
  simp [levelOf, argBounded, argEscape, argNotice]

theorem levelOf_inner (arg : Arg) :
    levelOf arg true = ⟨false, arg.getLsbD 1 && !arg.getLsbD 0, (arg.extractLsb' 2 2).toNat⟩ := by
  simp [levelOf, argBounded, argEscape, argNotice]

/-- A group just started, its one level written out. -/
theorem Context.started_eq (x : Context) (arg : Arg) (rec : Option Addr) : x.started arg rec =
    { x with
      state := .opened, depth := 1
      levels := [⟨arg.getLsbD 0, arg.getLsbD 1, (arg.extractLsb' 2 2).toNat⟩]
      escape := arg.getLsbD 1, notice := (arg.extractLsb' 2 2).toNat, bounded := arg.getLsbD 0
      outerArg := arg, recAddr := rec, lifetime := 1, cycles := 0
      number := x.number + 1 } := by
  simp [Context.started, Context.withLevels, levelOf_outer, escapeOf, noticeOf, boundedOf]

/-- Settles O7: an OPEN in IDLE is the outermost one, and one in OPEN aborts by bound or by depth. -/
theorem openStartsOrAbortsAGroup : Obligations.OpenStartsOrAbortsAGroup := by
  refine ⟨fun s p arg c hfree hsettled hserving hrun hidle hnotice hbits => ?_,
    fun s p arg c hfree hserving hrun hopen => ⟨fun hbounded => ?_, fun hbounded hdepth => ?_⟩⟩
  · have hlegal := (openArgLegal_iff arg).mpr ⟨hnotice, hbits⟩
    rw [exec_markOpen_of_free hfree, State.takeOpen_of_idle (s := s.answered p []) hserving hrun hidle,
      State.outermostOpen, if_pos hlegal]
    simp only [State.openNotice_eq, Context.started_eq, State.pendRec_answered]
    refine next_settle_of_quiet hsettled ?_ rfl rfl rfl rfl (s.pair_answered p _)
    rw [State.answered_eq_respond s p [_]]
    rfl
  · rw [exec_markOpen_of_free hfree, State.takeOpen_of_opened (s := s.answered p []) hserving hrun hopen,
      State.innerOpen]
    simp only [State.ctx_answered, hbounded, if_true]
    rw [State.openAborts, abortResult_lasting rfl]
    rfl
  · rw [exec_markOpen_of_free hfree, State.takeOpen_of_opened (s := s.answered p []) hserving hrun hopen,
      State.innerOpen]
    simp only [State.ctx_answered, hbounded, hdepth, Bool.false_eq_true, if_false, Config.depthLimit, if_true]
    rw [State.openAborts, abortResult_lasting rfl, State.ctx_answered, hdepth]
    rfl

/-! ### Levels -/

theorem escapeOf_iff (ls : List Level) : escapeOf ls = true ↔ ls ≠ [] ∧ ∀ l ∈ ls, l.escape = true := by
  simp [escapeOf]

theorem le_noticeOf {ls : List Level} {l : Level} (h : l ∈ ls) : l.notice ≤ noticeOf ls := by
  induction ls with
  | nil => simp at h
  | cons k ls ih =>
    rcases List.mem_cons.mp h with rfl | h
    · exact Nat.le_max_left _ _
    · exact (ih h).trans (Nat.le_max_right _ _)

theorem exists_notice_eq_noticeOf {ls : List Level} (h : ls ≠ []) : ∃ l ∈ ls, l.notice = noticeOf ls := by
  induction ls with
  | nil => exact absurd rfl h
  | cons k ls ih =>
    have hcons : noticeOf (k :: ls) = max k.notice (noticeOf ls) := rfl
    rw [hcons]
    rcases Nat.le_total (noticeOf ls) k.notice with hle | hle
    · exact ⟨k, by simp, (Nat.max_eq_left hle).symm⟩
    · rw [Nat.max_eq_right hle]
      by_cases hls : ls = []
      · subst hls
        exact ⟨k, by simp, Nat.le_zero.mp (by simpa [noticeOf] using hle)⟩
      · obtain ⟨l, hl, hn⟩ := ih hls
        exact ⟨l, by simp [hl], hn⟩

theorem boundedOf_append (ls : List Level) (l : Level) : boundedOf (ls ++ [l]) = l.bounded := by
  simp [boundedOf]

/-- CLOSE of legal argument in OPEN goes by the depth (R15). -/
theorem State.takeClose_of_opened {s : State} {p : PortId} {c : CtxId} (hserving : s.serving p = c)
    (hopen : (s.ctx c).state = .opened) : s.takeClose p 0 = s.closeOpen c p := by
  subst hserving
  simp [State.takeClose, hopen]

/-- Settles O8: a level pushed by an inner OPEN, a level popped by a CLOSE above depth 1, and the controls formed from
the stack. -/
theorem levelsAreEnteredAndLeft : Obligations.LevelsAreEnteredAndLeft := by
  refine ⟨fun s p arg c hfree hsettled hserving hrun hopen hbounded hdepth =>
      ⟨fun hnotice hbits ls hls => ?_, fun hillegal => ?_⟩,
    fun s p c l ls hfree hsettled hserving hopen hdepth hlevels => ?_,
    escapeOf_iff, fun ls => ⟨fun l hl => le_noticeOf hl, exists_notice_eq_noticeOf⟩, boundedOf_append⟩
  · have hlegal := (openArgLegal_iff arg).mpr ⟨hnotice, hbits⟩
    rw [exec_markOpen_of_free hfree, State.takeOpen_of_opened (s := s.answered p []) hserving hrun hopen,
      State.innerOpen]
    simp only [State.ctx_answered, hbounded, Bool.false_eq_true, if_false, Config.depthLimit, hdepth, hlegal, if_true,
      levelOf_inner]
    rw [← hls]
    refine next_settle_of_quiet hsettled ?_ rfl rfl rfl rfl (s.pair_answered p _)
    rw [State.answered_eq_respond s p [_]]
    rfl
  · have hlegal : ¬ openArgLegal arg = true := by
      rw [openArgLegal_iff]
      tauto
    rw [exec_markOpen_of_free hfree, State.takeOpen_of_opened (s := s.answered p []) hserving hrun hopen,
      State.innerOpen]
    simp only [State.ctx_answered, hbounded, Bool.false_eq_true, if_false, Config.depthLimit, hdepth, hlegal]
    exact next_settle_of_quiet hsettled (State.respond_answered ..) rfl rfl rfl rfl (s.pair_answered p _)
  · rw [exec_markClose_of_free hfree, State.takeClose_of_opened (s := s.answered p []) hserving hopen, State.closeOpen]
    simp only [State.ctx_answered, hdepth, if_true, hlevels, List.tail_cons]
    refine next_settle_of_quiet hsettled ?_ rfl rfl rfl rfl (s.pair_answered p _)
    rw [State.answered_eq_respond s p [_]]
    rfl

/-! ### OPENs and CLOSEs that change no group -/

theorem State.collideRead_answered (s : State) (p : PortId) :
    (s.answered p []).collideRead p = s.flagged p .collision [.word 0x0000000B] :=
  s.respond_setFlag_answered p _ .collision

theorem State.result_answered (s : State) (p : PortId) (w : Word) :
    (s.answered p []).result p w = s.answered p [.word w] := s.respond_answered p [] [.word w]

/-- Settles O9, check by check. -/
theorem openAndCloseRefusals : Obligations.OpenAndCloseRefusals := by
  refine ⟨fun s p arg x hfree hsettled hx => ?_, fun s p arg x hfree hsettled hx => ?_⟩ <;> subst hx
  · rw [exec_markOpen_of_free hfree]
    refine ⟨fun hhold => ?_, fun hcommitting haborting hrun => ?_, fun hdoomed hrun => ?_, fun hidle hrun hillegal => ?_⟩
    · rw [State.takeOpen_of_hold (s := s.answered p []) hhold, State.collideRead_answered, State.settle_flagged hsettled]
    · rw [State.takeOpen_of_not_running (s := s.answered p []) hcommitting haborting hrun, State.result_answered,
        State.settle_answered _ _ _ hsettled]
      rfl
    · rw [State.takeOpen_of_doomed (s := s.answered p []) hrun hdoomed, State.result_answered,
        State.settle_answered _ _ _ hsettled]
      rfl
    · have hlegal : ¬ openArgLegal arg = true := by
        rw [openArgLegal_iff]
        tauto
      rw [State.takeOpen_of_idle (s := s.answered p []) rfl hrun hidle, State.outermostOpen, if_neg hlegal,
        State.result_answered, State.settle_answered _ _ _ hsettled]
      rfl
  · rw [exec_markClose_of_free hfree, exec_markClose_of_free hfree]
    refine ⟨fun hhold => ?_, fun hcommitting hheld harg => ?_, fun hidle => ?_⟩
    · rw [State.takeClose_of_collides (s := s.answered p []) hhold, State.collideRead_answered,
        State.settle_flagged hsettled]
    · rw [State.takeClose_of_argument (s := s.answered p []) hcommitting hheld harg, State.result_answered,
        State.settle_answered _ _ _ hsettled]
      rfl
    · rw [State.takeClose_of_idle (s := s.answered p []) hidle, State.result_answered,
        State.settle_answered _ _ _ hsettled]
      rfl

/-! ### The outermost CLOSE -/

theorem Context.toIdle_eq (x : Context) : x.toIdle =
    { x with
      state := .idle, depth := 0, levels := [], escape := false, notice := 0, bounded := false
      recAddr := none, release := false, held := none } := rfl

theorem State.leaveOpen_eq (s : State) (c : CtxId) :
    s.leaveOpen c = ((s.setReads c []).setAges (s.ages.filter (· ≠ c))).commitNotice c := rfl

/-- The end of OPEN is the same before and after the port's answer. -/
theorem State.leaveOpen_respond (s : State) (c : CtxId) (p : PortId) (as : List Answer) :
    (s.respond p as).leaveOpen c = (s.leaveOpen c).respond p as := by
  rw [State.leaveOpen_eq, State.leaveOpen_eq]
  exact ((s.setReads c []).setAges (s.ages.filter (· ≠ c))).commitNotice_respond p as c

theorem State.closeOpen_of_outermost {s : State} {c : CtxId} {p : PortId} (hdepth : (s.ctx c).depth = 1) :
    s.closeOpen c p = s.outermostClose c p := by
  simp [State.closeOpen, hdepth]

theorem State.outermostClose_of_nil {s : State} {c : CtxId} {p : PortId} (h : s.order c = []) :
    s.outermostClose c p = ((s.leaveOpen c).idle c).result p (plainResult .committed) := by
  simp [State.outermostClose, h]

theorem State.outermostClose_of_ne_nil {s : State} {c : CtxId} {p : PortId} (h : s.order c ≠ []) :
    s.outermostClose c p = s.commitStart c p := by
  simp [State.outermostClose, h]

/-- Settles O10: the outermost CLOSE without slots, the CLOSE of an aborted group, and the commit notice. -/
theorem closeWithNothingToCommit : Obligations.CloseWithNothingToCommit := by
  refine ⟨fun s p c hfree hsettled hserving hopen hdepth hempty => ?_,
    fun s p c x hfree hsettled hserving hx => ⟨fun hdoomed => ?_, fun haborting hheld => ?_⟩, fun s c => ?_⟩
  · rw [exec_markClose_of_free hfree, State.takeClose_of_opened (s := s.answered p []) hserving hopen,
      State.closeOpen_of_outermost (s := s.answered p []) hdepth,
      State.outermostClose_of_nil (s := s.answered p []) hempty, State.idle]
    have hctx : ((s.answered p []).leaveOpen c).ctx c = s.ctx c := by simp [State.leaveOpen]
    rw [hctx]
    refine next_settle_of_quiet (s.answered_settled p [.word 0x00000004] hsettled) ?_ (by simp) (by simp) (by simp)
      (by simp) (by simp)
    rw [State.answered_eq_respond s p [_]]
    exact congrArg (State.setCtx · c _) ((s.answered p []).leaveOpen_respond c p _).symm
  · subst hserving hx
    rw [exec_markClose_of_free hfree, State.takeClose_of_doomed (s := s.answered p []) hdoomed]
    refine next_settle_of_quiet hsettled ?_ rfl rfl rfl rfl (s.pair_answered p _)
    rw [State.answered_eq_respond s p [_]]
    rfl
  · subst hserving hx
    rw [exec_markClose_of_free hfree, State.takeClose_of_aborting (s := s.answered p []) haborting hheld]
    refine next_settle_of_quiet (s.answered_settled p [] hsettled) rfl rfl rfl rfl rfl fun q => ?_
    exact State.pair_setCycle ..
  · obtain ⟨hnot, hnil, hcons⟩ := s.commitNotice_eq c
    exact ⟨hnot, hnil, fun h r hs ht hq => hcons h r ht hq (State.escalationOn_of_queued hs hq)⟩

theorem State.commitStart_eq (s : State) (c : CtxId) (p : PortId) : s.commitStart c p =
    ((((s.leaveOpen c).lockSlots c).setJobs (s.jobs ++ [⟨c, .commit (s.order c).length 0 0, .waiting⟩])).setCtx c
      { s.ctx c with state := .committing, held := some p }).setCycle p (some .heldClose) := by
  have hctx : ((s.leaveOpen c).lockSlots c).ctx c = s.ctx c := by simp [State.leaveOpen]
  have hjobs : ((s.leaveOpen c).lockSlots c).jobs = s.jobs := by simp [State.leaveOpen]
  simp only [State.commitStart, State.holdClose, hctx]
  generalize (s.leaveOpen c).lockSlots c = t at hjobs ⊢
  simp [State.setCtx, State.setJobs, State.ctx, hjobs]

/-- Settles O11. -/
theorem closeStartsACommit : Obligations.CloseStartsACommit := by
  refine ⟨fun s p c hfree hserving hopen hdepth hslots => ?_, State.lockSlots_eq⟩
  rw [exec_markClose_of_free hfree, State.takeClose_of_opened (s := s.answered p []) hserving hopen,
    State.closeOpen_of_outermost (s := s.answered p []) hdepth,
    State.outermostClose_of_ne_nil (s := s.answered p []) hslots, State.commitStart_eq]
  rfl

end Sys2Proof.Machine
end

section
/-! Write marks and read marks at a free port (R20, R21, R149, R154, R177, R180): RECADDR, parity, STATUS, GETCFG. -/

namespace Sys2Proof.Machine

/-! ### A write mark at a free port -/

/-- A port changed without a change of its pair is followed by nothing. -/
theorem State.settle_setPort {s : State} (h : s.settled) {p : PortId} {x : PortState}
    (hpair : x.pair = (s.port p).pair) : (s.setPort p x).settle = s.setPort p x :=
  State.settle_of_settled (State.setPort_settled h hpair)

section
variable {s : State} {p : PortId} {data : Word} {par : Lanes}

/-- A write mark of good parity: a collision on hold, and else its own rule on the port that has begun its cycle. -/
theorem State.cycle_writeMark_of_good (h : s.free p) (hgood : beatGood 0xF data par) (code : Nat) (arg : Arg)
    (f : State → State) : (s.cycle p fun t => t.writeMark p code arg data par f) =
      (if s.onHold (s.serving p) then s.flagged p .collision [.error] else f (s.answered p [])).settle := by
  obtain ⟨_, hpair⟩ := (s.free_iff p).mp h
  have hpair' : ((s.answered p []).port p).pair = none := by simp [hpair]
  rw [State.cycle_of_free h, State.writeMark_of_good hpair' hgood, State.refuseWriteMark_answered]
  rfl

/-- A write mark of bad parity is refused for it before its collision is looked at (R149). -/
theorem State.cycle_writeMark_of_bad (h : s.free p) (hbad : beatGood 0xF data par = false) (code : Nat) (arg : Arg)
    (f : State → State) : (s.cycle p fun t => t.writeMark p code arg data par f) =
      ((s.answered p []).refuseParity p (markAddr code arg)).settle := by
  obtain ⟨_, hpair⟩ := (s.free_iff p).mp h
  have hpair' : ((s.answered p []).port p).pair = none := by simp [hpair]
  rw [State.cycle_of_free h, State.writeMark, State.breakPair_of_no_pair hpair', hbad]
  rfl

/-- A write refused for parity outside OPEN leaves its flag and one ERROR. -/
theorem State.refuseParity_not_open (h : (s.ctx (s.serving p)).state ≠ .opened) (a : Addr) :
    (s.answered p []).refuseParity p a = s.flagged p .parity [.error] := by
  have hnot : (((s.answered p []).setFlag p .parity).ctx (s.serving p)).state ≠ .opened := h
  rw [State.refuseParity, State.serving_answered, State.abort_not_open hnot, State.respond_setFlag_answered]

/-- A write refused for parity in OPEN aborts its group with PARITY (R149). -/
theorem State.refuseParity_open {c : CtxId} (hserving : s.serving p = c) (h : (s.ctx c).state = .opened) (a : Addr) :
    s.refuseParity p a = ((s.setFlag p .parity).takeAbort c .parity (some a) none).respond p [.error] := by
  have hopen : ((s.setFlag p .parity).ctx c).state = .opened := h
  rw [State.refuseParity, hserving, State.abort_open hopen]

end

/-! ### RECADDR -/

theorem recAddrLegal_iff (arg : Arg) (data : Word) : recAddrLegal arg data = true ↔
    arg = 0 ∧ (data = 0 ∨ data.extractLsb' 0 5 = 0 ∧ data.extractLsb' 28 4 = 0) := by
  simp [recAddrLegal]

theorem State.takeRecAddr_of_legal {s : State} {p : PortId} {arg : Arg} {data : Word}
    (h : recAddrLegal arg data) : (s.answered p []).takeRecAddr p arg data =
      s.setPort p { s.port p with pendRec := recAddrValue data, answers := [.done] } := by
  rw [State.takeRecAddr, if_pos h]
  simp [State.respond, State.answered, State.setPort, State.port]

/-- Settles O13, by what R21 asks of the word. -/
theorem recAddrSetsThePendingAddress : Obligations.RecAddrSetsThePendingAddress := by
  intro s p arg data par x hfree hsettled hx hgood
  subst hx
  have hexec : exec (.markRecAddr p arg data par) s =
      .next (s.cycle p fun t => t.writeMark p 10 arg data par fun t => t.takeRecAddr p arg data) := rfl
  rw [hexec, State.cycle_writeMark_of_good hfree hgood]
  refine ⟨fun hhold => ?_, fun hcommitting haborting hillegal => ?_, fun hcommitting haborting harg hdata => ?_,
    fun hcommitting haborting harg hdata hlow hhigh => ?_⟩
  · rw [if_pos ((s.onHold_iff _).mpr hhold), State.settle_flagged hsettled]
  · have hhold : ¬ s.onHold (s.serving p) = true := by simp [State.onHold_iff, hcommitting, haborting]
    have hlegal : ¬ recAddrLegal arg data = true := by
      rw [recAddrLegal_iff]
      tauto
    rw [if_neg hhold, State.takeRecAddr, if_neg hlegal, State.refuseWriteMark_answered, State.settle_flagged hsettled]
  · have hhold : ¬ s.onHold (s.serving p) = true := by simp [State.onHold_iff, hcommitting, haborting]
    rw [if_neg hhold, State.takeRecAddr_of_legal ((recAddrLegal_iff arg data).mpr ⟨harg, .inl hdata⟩), recAddrValue,
      if_pos hdata, State.settle_setPort hsettled (by rfl)]
  · have hhold : ¬ s.onHold (s.serving p) = true := by simp [State.onHold_iff, hcommitting, haborting]
    rw [if_neg hhold, State.takeRecAddr_of_legal ((recAddrLegal_iff arg data).mpr ⟨harg, .inr ⟨hlow, hhigh⟩⟩),
      recAddrValue, if_neg hdata, State.settle_setPort hsettled (by rfl)]

/-! ### Parity -/

theorem arg_eq_ofNat {arg : Arg} {n : Nat} (h : arg.toNat = n) : arg = BitVec.ofNat 16 n := by
  rw [← h, BitVec.ofNat_toNat, BitVec.setWidth_eq]

/-- Settles O14: whatever the mark, it is a write mark with its code, its argument and its word. -/
theorem writeMarkOfBadParity : Obligations.WriteMarkOfBadParity := by
  intro s p c i code arg data par hfree hserving hbad hmark
  have hexec : ∃ f, exec i s = .next (s.cycle p fun t => t.writeMark p code arg data par f) := by
    rcases hmark with ⟨rfl, rfl⟩ | ⟨rfl, rfl⟩ | ⟨rfl, rfl | ⟨k, hk, rfl⟩ | ⟨rfl, rfl⟩ | ⟨d, hd, rfl⟩ | ⟨rfl, rfl⟩ |
      ⟨rfl, rfl⟩ | ⟨rfl, rfl⟩ | ⟨rfl, rfl⟩⟩
    case inr.inr.inr.inl =>
      rw [arg_eq_ofNat hk]
      exact ⟨_, rfl⟩
    case inr.inr.inr.inr.inr.inl =>
      rw [arg_eq_ofNat hd]
      exact ⟨_, rfl⟩
    all_goals exact ⟨_, rfl⟩
  obtain ⟨f, hf⟩ := hexec
  rw [hf, State.cycle_writeMark_of_bad hfree hbad]
  refine ⟨fun hnot hsettled => ?_, fun hopen => ?_⟩
  · rw [State.refuseParity_not_open (hserving ▸ hnot), State.settle_flagged hsettled]
    rfl
  · rw [State.refuseParity_open (s := s.answered p []) hserving hopen]
    rfl

/-! ### STATUS and GETCFG -/

theorem exec_markStatus_of_free {s : State} {p : PortId} (h : s.free p) (arg : Arg) :
    exec (.markStatus p arg) s = .next ((s.answered p []).takeStatus p arg).settle := by
  obtain ⟨_, hpair⟩ := (s.free_iff p).mp h
  have hpair' : ((s.answered p []).port p).pair = none := by simp [hpair]
  have hexec : exec (.markStatus p arg) s = .next (s.cycle p fun t => t.statusCycle p arg) := rfl
  rw [hexec, State.cycle_of_free h, State.statusCycle, State.breakPair_of_no_pair hpair']

theorem exec_markGetCfg_of_free {s : State} {p : PortId} (h : s.free p) (item : Arg) :
    exec (.markGetCfg p item) s = .next ((s.answered p []).takeGetCfg p item).settle := by
  obtain ⟨_, hpair⟩ := (s.free_iff p).mp h
  have hpair' : ((s.answered p []).port p).pair = none := by simp [hpair]
  have hexec : exec (.markGetCfg p item) s = .next (s.cycle p fun t => t.getCfgCycle p item) := rfl
  rw [hexec, State.cycle_of_free h, State.getCfgCycle, State.breakPair_of_no_pair hpair']

theorem State.refuseReadMark_answered (s : State) (p : PortId) :
    (s.answered p []).refuseReadMark p = s.flagged p .refused [.readError] :=
  s.respond_setFlag_answered p _ .refused

theorem State.statusWord_answered (s : State) (p : PortId) (as : List Answer) :
    (s.answered p as).statusWord p = s.statusWord p := by
  have hflags : ((s.answered p as).port p).flags = (s.port p).flags := by simp
  unfold State.statusWord
  rw [hflags]
  rfl

/-- The item that an argument up to 10h names has a value, and no other argument has one (R173, R177). -/
theorem State.cfgValue_isSome_iff (s : State) (n : Nat) : (s.cfgValue n).isSome ↔ n ≤ 0x10 := by
  unfold State.cfgValue
  split_ifs <;> simp <;> omega

theorem State.cfgValue_region (s : State) (k : Fin 8) : s.cfgValue k.val = some (regionValue s.regions[k]) := by
  rw [State.cfgValue, dif_pos k.isLt]
  rfl

theorem State.takeGetCfg_of_value {s : State} {p : PortId} {item : Arg} {w : Word} (hp : p = s.cfgPort)
    (h : s.cfgValue item.toNat = some w) : s.takeGetCfg p item = s.result p w := by
  simp [State.takeGetCfg, hp, h]

theorem State.takeGetCfg_refused {s : State} {p : PortId} {item : Arg}
    (h : p = s.cfgPort → s.cfgValue item.toNat = none) : s.takeGetCfg p item = s.refuseReadMark p := by
  by_cases hp : p = s.cfgPort
  · simp [State.takeGetCfg, hp, h hp]
  · simp [State.takeGetCfg, hp]

/-- Settles O15. -/
theorem statusAndGetCfgReadTheState : Obligations.StatusAndGetCfgReadTheState := by
  refine ⟨fun s p arg c hfree hsettled hserving => ⟨fun hbits => ?_, fun hbits => ?_⟩,
    fun s p item hfree hsettled => ⟨fun hnot => ?_, fun hp hitem => ?_⟩, State.relation_eq, rfl, rfl, rfl⟩
  · rw [exec_markStatus_of_free hfree, State.takeStatus, if_neg hbits, State.refuseReadMark_answered,
      State.settle_flagged hsettled]
    rfl
  · subst hserving
    rw [exec_markStatus_of_free hfree, State.takeStatus, if_pos hbits, State.statusWord_answered, State.result_answered]
    have hport : ∀ w : Word, (s.answered p [.word w]).clearFlags p (arg.extractLsb' 0 8) = s.setPort p
        { s.port p with flags := (s.port p).flags &&& ~~~(arg.extractLsb' 0 8), answers := [.word w] } := by
      simp [State.clearFlags, State.answered, State.setPort, State.port]
    rw [hport, State.settle_setPort hsettled (by rfl)]
    rfl
  · have hvalue : p = s.cfgPort → s.cfgValue item.toNat = none := by
      intro hp
      rw [← Option.not_isSome_iff_eq_none, State.cfgValue_isSome_iff]
      exact (hnot.resolve_left (· hp)).not_ge
    rw [exec_markGetCfg_of_free hfree, State.takeGetCfg_refused (s := s.answered p []) hvalue,
      State.refuseReadMark_answered, State.settle_flagged hsettled]
    rfl
  · obtain ⟨w, hw⟩ := Option.isSome_iff_exists.mp ((s.cfgValue_isSome_iff _).mpr hitem)
    have hvalue : ∀ {n v}, item.toNat = n → s.cfgValue n = some v → w = v := by
      rintro _ v rfl hv
      exact Option.some.inj (hw.symm.trans hv)
    refine ⟨w, ?_, fun k hk => ⟨fun hnone => ?_, fun r hr => ?_⟩, fun h => hvalue (congrArg BitVec.toNat h) rfl, fun c hc => ?_,
      fun h => hvalue (congrArg BitVec.toNat h) rfl, fun h => hvalue (congrArg BitVec.toNat h) rfl, fun h => hvalue (congrArg BitVec.toNat h) rfl,
      fun h => hvalue (congrArg BitVec.toNat h) rfl⟩
    · rw [exec_markGetCfg_of_free hfree, State.takeGetCfg_of_value (s := s.answered p []) hp hw, State.result_answered,
        State.settle_answered _ _ _ hsettled]
    · rw [hvalue hk (s.cfgValue_region k), hnone]
      rfl
    · rw [hvalue hk (s.cfgValue_region k), hr]
      rfl
    · refine hvalue hc ?_
      fin_cases c <;> rfl

end Sys2Proof.Machine
end

section
/-! SETCFG (R109, R121, R122, R131, R174, R175, R176): turned away, refused for its value, or set. -/

namespace Sys2Proof.Machine

/-! ### A SETCFG at a free port -/

section
variable {s t : State} {p : PortId} {item : Arg} {data : Word} {par : Lanes} {apply : State → Option State}

theorem State.setCfg_of_good (h : s.free p) (hgood : beatGood 0xF data par) :
    s.setCfg p item data par apply =
      (if s.onHold (s.serving p) then s.flagged p .collision [.error]
        else (s.answered p []).takeSetCfg p apply).settle :=
  State.cycle_writeMark_of_good h hgood 11 item _

/-- On hold a SETCFG collides, whatever its item. -/
theorem State.setCfg_collides (hfree : s.free p) (hsettled : s.settled) (hgood : beatGood 0xF data par)
    (hhold : (s.ctx (s.serving p)).state = .committing ∨ (s.ctx (s.serving p)).state = .aborting) :
    s.setCfg p item data par apply = s.flagged p .collision [.error] := by
  rw [State.setCfg_of_good hfree hgood, if_pos ((s.onHold_iff _).mpr hhold), State.settle_flagged hsettled]

/-- Where the conditions that every item shares do not hold, a SETCFG is refused, whatever its item (R174). -/
theorem State.setCfg_not_configurable (hfree : s.free p) (hsettled : s.settled) (hgood : beatGood 0xF data par)
    (hcommitting : (s.ctx (s.serving p)).state ≠ .committing) (haborting : (s.ctx (s.serving p)).state ≠ .aborting)
    (hnot : p ≠ s.cfgPort ∨ (∃ c, (s.ctx c).state ≠ .idle) ∨ s.jobs ≠ []) :
    s.setCfg p item data par apply = s.flagged p .cfgrej [.error] := by
  have hhold : ¬ s.onHold (s.serving p) = true := by simp [State.onHold_iff, hcommitting, haborting]
  have hconf : ¬ (s.answered p []).configurable p = true := by
    rw [State.configurable_iff]
    rintro ⟨hp, hidle, hjobs⟩
    rcases hnot with hne | ⟨c, hc⟩ | hne
    · exact hne hp
    · exact hc (hidle c)
    · exact hne hjobs
  rw [State.setCfg_of_good hfree hgood, if_neg hhold, State.takeSetCfg, if_neg hconf, State.refuseWriteMark_answered,
    State.settle_flagged hsettled]

theorem State.acceptsCfg_iff : s.acceptsCfg p data par = true ↔ s.free p = true ∧ beatGood 0xF data par = true ∧
    p = s.cfgPort ∧ (∀ c, (s.ctx c).state = .idle) ∧ s.jobs = [] := by
  simp [State.acceptsCfg, and_assoc]

/-- A SETCFG that passes the shared checks goes by its value alone. -/
theorem State.setCfg_of_accepts (h : s.acceptsCfg p data par) : s.setCfg p item data par apply =
    ((apply (s.answered p [])).elim (s.flagged p .cfgrej [.error]) fun t => t.respond p [.done]).settle := by
  obtain ⟨hfree, hgood, hp, hidle, hjobs⟩ := State.acceptsCfg_iff.mp h
  have hhold : ¬ s.onHold (s.serving p) = true := by simp [State.onHold_iff, hidle]
  have hconf : (s.answered p []).configurable p = true := (State.configurable_iff _ p).mpr ⟨hp, hidle, hjobs⟩
  rw [State.setCfg_of_good hfree hgood, if_neg hhold, State.takeSetCfg, if_pos hconf, State.refuseWriteMark_answered]
  cases apply (s.answered p []) <;> rfl

/-- An illegal value is refused. -/
theorem State.setCfg_refused (h : s.acceptsCfg p data par) (hsettled : s.settled)
    (happly : apply (s.answered p []) = none) : s.setCfg p item data par apply = s.flagged p .cfgrej [.error] := by
  rw [State.setCfg_of_accepts h, happly]
  exact State.settle_flagged hsettled ..

/-- A legal value is set. -/
theorem State.setCfg_done (h : s.acceptsCfg p data par) (hsettled : s.settled) {u : State}
    (happly : apply (s.answered p []) = some u) (ht : u.respond p [.done] = t) (hb : t.bus = s.bus)
    (hr : t.reqs = s.reqs) (hp : t.pointer = s.pointer) (hj : t.jobs = s.jobs)
    (hq : ∀ q, (t.port q).pair = (s.port q).pair) : s.setCfg p item data par apply = t := by
  rw [State.setCfg_of_accepts h, happly, Option.elim_some, ht]
  exact State.settle_of_quiet hsettled hb hr hp hj hq

end

/-! ### SETCFG turned away -/

theorem State.applyItem_undefined (s : State) {n : Nat} (h : 0x10 < n) (data : Word) : s.applyItem n data = none := by
  have hlow : ¬ n < 8 := by omega
  have hne : ∀ k ≤ 0x10, n ≠ k := fun k hk => by omega
  simp [State.applyItem, hlow, hne]

/-- Settles O16: every SETCFG is the one operation `setCfg`, and what turns it away comes before its item. -/
theorem setCfgTurnedAway : Obligations.SetCfgTurnedAway := by
  refine ⟨fun s p data par x f hfree hsettled hgood hx hturned => ?_,
    fun s p item data par haccepts hsettled hitem => ?_⟩
  · subst hx
    have hset : ∀ item apply, s.setCfg p item data par apply = s.flagged p f [.error] := by
      intro item apply
      rcases hturned with ⟨hhold, rfl⟩ | ⟨⟨hcommitting, haborting⟩, rfl, hnot⟩
      · exact State.setCfg_collides hfree hsettled hgood hhold
      · exact State.setCfg_not_configurable hfree hsettled hgood hcommitting haborting hnot
    exact ⟨fun k => congrArg Host.Outcome.next (hset _ _), congrArg Host.Outcome.next (hset _ _),
      fun c => congrArg Host.Outcome.next (hset _ _), congrArg Host.Outcome.next (hset _ _),
      congrArg Host.Outcome.next (hset _ _), congrArg Host.Outcome.next (hset _ _),
      congrArg Host.Outcome.next (hset _ _), fun item => congrArg Host.Outcome.next (hset _ _)⟩
  · have hset : s.setCfg p item data par (fun t => t.applyItem item.toNat data) = s.flagged p .cfgrej [.error] :=
      State.setCfg_refused haccepts hsettled (State.applyItem_undefined _ hitem data)
    exact congrArg Host.Outcome.next hset

/-! ### Regions -/

theorem Region.holds_iff (r : Region) (l : Line) : r.holds l = true ↔
    r.base.toNat ≤ l.toNat ∧ l.toNat < r.base.toNat + 2 ^ (r.exp.toNat - 5) :=
  decide_eq_true_iff

theorem Region.legal_iff (r : Region) : r.legal = true ↔
    (5 ≤ r.exp.toNat ∧ r.exp.toNat ≤ 28) ∧ r.base.toNat % 2 ^ (r.exp.toNat - 5) = 0 := by
  simp [Region.legal, Region.lines]

/-- Two regions overlap exactly when some line is in both: the higher of their bases is one. -/
theorem Region.overlaps_iff (a b : Region) : a.overlaps b = true ↔ ∃ l, a.holds l = true ∧ b.holds l = true := by
  have hpos : ∀ r : Region, 0 < 2 ^ (r.exp.toNat - 5) := fun r => Nat.two_pow_pos _
  have ha := hpos a
  have hb := hpos b
  have hover : a.overlaps b = true ↔ a.base.toNat < b.base.toNat + 2 ^ (b.exp.toNat - 5) ∧
      b.base.toNat < a.base.toNat + 2 ^ (a.exp.toNat - 5) := decide_eq_true_iff
  simp only [hover, Region.holds_iff]
  constructor
  · rintro ⟨h1, h2⟩
    rcases Nat.le_total a.base.toNat b.base.toNat with hle | hle
    · exact ⟨b.base, ⟨hle, h2⟩, le_rfl, by omega⟩
    · exact ⟨a.base, ⟨le_rfl, by omega⟩, hle, h1⟩
  · rintro ⟨l, ⟨h1, h2⟩, h3, h4⟩
    omega

theorem State.clearOfOthers_iff (s : State) (k : Fin 8) (r : Region) : s.clearOfOthers k r = true ↔
    ∀ (j : Fin 8) (o : Region), j ≠ k → s.regions[j] = some o → ∀ l, ¬ (o.holds l = true ∧ r.holds l = true) := by
  simp only [State.clearOfOthers, List.all_eq_true, List.mem_finRange, forall_const, Bool.or_eq_true, beq_iff_eq,
    Bool.not_eq_true', Option.any_eq_false]
  refine forall_congr' fun j => ⟨fun h o hj ho l ⟨h1, h2⟩ => ?_, fun h => ?_⟩
  · have hover := (h.resolve_left hj) o ho
    rw [← Bool.not_eq_true, Region.overlaps_iff] at hover
    exact hover ⟨l, h2, h1⟩
  · by_cases hj : j = k
    · exact .inl hj
    · refine .inr fun o ho => ?_
      rw [← Bool.not_eq_true, Region.overlaps_iff]
      rintro ⟨l, h1, h2⟩
      exact h o hj ho l ⟨h2, h1⟩

/-- The value of a region item: bits outside the fields, an absent entry, or a region of some kind (R109). -/
theorem State.applyRegion_of_kind {s : State} {k : Fin 8} {data : Word} {r : Region}
    (hbits : data.extractLsb' 30 2 = 0) (hbase : r.base = data.extractLsb' 0 23) (hexp : r.exp = data.extractLsb' 23 5)
    (hkind : data.extractLsb' 28 2 = 1 ∧ r.kind = .tracked ∨ data.extractLsb' 28 2 = 2 ∧ r.kind = .pass ∨
      data.extractLsb' 28 2 = 3 ∧ r.kind = .blocked) :
    s.applyRegion k data = if r.legal && s.clearOfOthers k r then some { s with regions := s.regions.set k (some r) }
      else none := by
  obtain ⟨base, exp, kind⟩ := r
  simp only at hbase hexp hkind
  subst hbase hexp
  have hcode : kindOfCode (data.extractLsb' 28 2) = some kind := by
    rcases hkind with ⟨hk, rfl⟩ | ⟨hk, rfl⟩ | ⟨hk, rfl⟩ <;> rw [hk] <;> rfl
  rw [State.applyRegion, if_neg (not_not.mpr hbits), hcode]

theorem State.applyRegion_of_absent {s : State} {k : Fin 8} {data : Word} (hbits : data.extractLsb' 30 2 = 0)
    (hkind : data.extractLsb' 28 2 = 0) :
    s.applyRegion k data = some { s with regions := s.regions.set k none } := by
  rw [State.applyRegion, if_neg (not_not.mpr hbits), hkind]
  rfl

theorem kindCode_cases (data : Word) (h : data.extractLsb' 28 2 ≠ 0) : ∃ kind : Kind,
    data.extractLsb' 28 2 = 1 ∧ kind = .tracked ∨ data.extractLsb' 28 2 = 2 ∧ kind = .pass ∨
      data.extractLsb' 28 2 = 3 ∧ kind = .blocked := by
  have hcases : ∀ b : BitVec 2, b ≠ 0 → b = 1 ∨ b = 2 ∨ b = 3 := by decide
  rcases hcases _ h with hk | hk | hk
  · exact ⟨.tracked, .inl ⟨hk, rfl⟩⟩
  · exact ⟨.pass, .inr (.inl ⟨hk, rfl⟩)⟩
  · exact ⟨.blocked, .inr (.inr ⟨hk, rfl⟩)⟩

theorem State.clearOfOthers_answered (s : State) (p : PortId) (as : List Answer) (k : Fin 8) (r : Region) :
    (s.answered p as).clearOfOthers k r = s.clearOfOthers k r := rfl

/-- Settles O17. -/
theorem setCfgRegionSetsAnEntry : Obligations.SetCfgRegionSetsAnEntry := by
  refine ⟨fun s p k data par r haccepts hsettled hbase hexp => ⟨fun hbits hkind => ?_,
      fun hbits hkind hlow hhigh haligned hclear => ?_, fun hbad => ?_⟩, State.kindOf_eq, Region.holds_iff⟩
  · refine congrArg Host.Outcome.next (State.setCfg_done haccepts hsettled (State.applyRegion_of_absent hbits hkind) ?_
      rfl rfl rfl rfl (s.pair_answered p _))
    rw [State.answered_eq_respond s p [_]]
    rfl
  · have hgood : (r.legal && (s.answered p []).clearOfOthers k r) = true := by
      rw [Bool.and_eq_true, Region.legal_iff, State.clearOfOthers_answered, State.clearOfOthers_iff]
      exact ⟨⟨⟨hlow, hhigh⟩, haligned⟩, hclear⟩
    have happly := State.applyRegion_of_kind (s := s.answered p []) (k := k) hbits hbase hexp hkind
    rw [if_pos hgood] at happly
    refine congrArg Host.Outcome.next (State.setCfg_done haccepts hsettled happly ?_ rfl rfl rfl rfl
      (s.pair_answered p _))
    rw [State.answered_eq_respond s p [_]]
    rfl
  · refine congrArg Host.Outcome.next (State.setCfg_refused haccepts hsettled ?_)
    by_cases hbits : data.extractLsb' 30 2 = 0
    · obtain ⟨hcode, hvalue⟩ := hbad.resolve_left (not_not.mpr hbits)
      obtain ⟨kind, hkind⟩ := kindCode_cases data hcode
      have happly := State.applyRegion_of_kind (s := s.answered p []) (k := k) (r := ⟨r.base, r.exp, kind⟩) hbits hbase
        hexp hkind
      rw [if_neg ?_] at happly
      · exact happly
      · rw [Bool.and_eq_true, Region.legal_iff, State.clearOfOthers_answered, State.clearOfOthers_iff]
        rintro ⟨⟨⟨hlow, hhigh⟩, haligned⟩, hclear⟩
        rcases hvalue with h | h | h | ⟨j, o, l, hj, ho, hl, hr⟩
        · exact h.not_ge hlow
        · exact h.not_ge hhigh
        · exact h haligned
        · exact hclear j o hj ho l ⟨hl, hr⟩
    · rw [State.applyRegion, if_pos hbits]

end Sys2Proof.Machine
end

section
/-! SETCFG of pairing, lifetimes, slot caps, escalation, tick source and fault masks (R121, R122, R131, R175, R176). -/

namespace Sys2Proof.Machine

/-! ### Leaving escalation, and answers -/

theorem State.leaveEscalation_respond (s : State) (c : CtxId) (p : PortId) (as : List Answer) :
    (s.respond p as).leaveEscalation c = (s.leaveEscalation c).respond p as := by
  have hleave : ∀ t : State, t.leaveEscalation c =
      if ((t.setCounter c 0).setQueue (t.prioQueue.filter fun d => d ≠ c)).ownsToken c then
        ((t.setCounter c 0).setQueue (t.prioQueue.filter fun d => d ≠ c)).freeToken.grantToken
      else (t.setCounter c 0).setQueue (t.prioQueue.filter fun d => d ≠ c) := fun _ => rfl
  have howns : (((s.respond p as).setCounter c 0).setQueue ((s.respond p as).prioQueue.filter fun d => d ≠ c)).ownsToken c
      = ((s.setCounter c 0).setQueue (s.prioQueue.filter fun d => d ≠ c)).ownsToken c := rfl
  rw [hleave, hleave, howns]
  split
  · exact (((s.setCounter c 0).setQueue (s.prioQueue.filter fun d => d ≠ c)).freeToken).grantToken_respond p as
  · rfl

/-! ### Pairing -/

/-- The state with another pairing (R173). -/
def State.joinedAs (s : State) (a b : Bool) : State := { s with joinA := a, joinB := b }

/-- What the pairing item does with its word, an upper context at a time (R132, R175). -/
theorem State.applyPairing_of_legal (s : State) {data : Word} (h : data.extractLsb' 2 30 = 0) : s.applyPairing data =
    some (((s.joinedAs (data.getLsbD 0) (data.getLsbD 1)).joinUpper s.joinA (data.getLsbD 0) 1).joinUpper s.joinB
      (data.getLsbD 1) 3) := by
  rw [State.applyPairing, if_neg (not_not.mpr h)]
  rfl

theorem State.joinUpper_of_not {s : State} {was now : Bool} (h : now = false ∨ was = true) (upper : CtxId) :
    s.joinUpper was now upper = s := by
  rcases h with rfl | rfl <;> simp [State.joinUpper]

theorem State.joinUpper_of_new {s : State} {was now : Bool} (hnow : now = true) (hwas : was = false) (upper : CtxId) :
    s.joinUpper was now upper = s.leaveEscalation upper := by
  subst hnow hwas
  rfl

/-! ### Slot caps -/

theorem capLegal_iff (b : Byte) : capLegal b = true ↔ 1 ≤ b.toNat ∧ b.toNat ≤ 48 := by simp [capLegal]

theorem capsLegal_iff (data : Word) : ([0, 1, 2, 3].all fun n => capLegal (laneByte data n)) = true ↔
    ∀ n < 4, 1 ≤ (laneByte data n).toNat ∧ (laneByte data n).toNat ≤ 48 := by
  have h4 : ∀ n, n ∈ [0, 1, 2, 3] ↔ n < 4 := by
    intro n
    simp only [List.mem_cons, List.not_mem_nil, or_false]
    omega
  simp only [List.all_eq_true, capLegal_iff, h4]

/-- Settles O18, item by item. -/
theorem setCfgPairingLifetimeAndSlotCaps : Obligations.SetCfgPairingLifetimeAndSlotCaps := by
  refine ⟨fun s t p data par haccepts hsettled ht => ?_, ⟨fun s p c data par haccepts hsettled => ⟨fun hbad => ?_,
    fun hbits hlimit => ?_⟩, fun s p data par haccepts hsettled => ⟨fun hlegal => ?_, fun hbad => ?_⟩⟩, State.serving_eq⟩
  · have hrespond : ((s.answered p []).joinedAs (data.getLsbD 0) (data.getLsbD 1)).respond p [.done] = t := by
      rw [ht, State.answered_eq_respond s p [_]]
      rfl
    have hrespond' : ∀ c, (((s.answered p []).joinedAs (data.getLsbD 0) (data.getLsbD 1)).leaveEscalation c).respond p
        [.done] = t.leaveEscalation c := fun c => by rw [← State.leaveEscalation_respond, hrespond]
    have hstill : t.bus = s.bus ∧ t.reqs = s.reqs ∧ t.pointer = s.pointer ∧ t.jobs = s.jobs := by
      subst ht
      exact ⟨rfl, rfl, rfl, rfl⟩
    have hpair : ∀ q, (t.port q).pair = (s.port q).pair := by
      subst ht
      exact s.pair_answered p _
    have happly : data.extractLsb' 2 30 = 0 → (s.answered p []).applyPairing data =
        some ((((s.answered p []).joinedAs (data.getLsbD 0) (data.getLsbD 1)).joinUpper s.joinA (data.getLsbD 0)
          1).joinUpper s.joinB (data.getLsbD 1) 3) := (s.answered p []).applyPairing_of_legal
    refine ⟨fun hbits => ?_, fun hbits hA hB => ?_, fun hbits hA hA' hB => ?_, fun hbits hA hB hB' => ?_,
      fun hbits hA hA' hB hB' => ?_⟩
    · exact congrArg Host.Outcome.next (State.setCfg_refused haccepts hsettled (if_pos hbits))
    · specialize happly hbits
      rw [State.joinUpper_of_not hA, State.joinUpper_of_not hB] at happly
      exact congrArg Host.Outcome.next (State.setCfg_done haccepts hsettled happly hrespond hstill.1 hstill.2.1
        hstill.2.2.1 hstill.2.2.2 hpair)
    · specialize happly hbits
      rw [State.joinUpper_of_new hA hA', State.joinUpper_of_not hB] at happly
      exact congrArg Host.Outcome.next (State.setCfg_done haccepts hsettled happly (hrespond' 1) (by simp [hstill])
        (by simp [hstill]) (by simp [hstill]) (by simp [hstill]) (by simp [hpair]))
    · specialize happly hbits
      rw [State.joinUpper_of_not hA, State.joinUpper_of_new hB hB'] at happly
      exact congrArg Host.Outcome.next (State.setCfg_done haccepts hsettled happly (hrespond' 3) (by simp [hstill])
        (by simp [hstill]) (by simp [hstill]) (by simp [hstill]) (by simp [hpair]))
    · specialize happly hbits
      rw [State.joinUpper_of_new hA hA', State.joinUpper_of_new hB hB'] at happly
      refine congrArg Host.Outcome.next (State.setCfg_done haccepts hsettled happly ?_ (by simp [hstill])
        (by simp [hstill]) (by simp [hstill]) (by simp [hstill]) (by simp [hpair]))
      rw [← State.leaveEscalation_respond, hrespond']
  · refine congrArg Host.Outcome.next (State.setCfg_refused haccepts hsettled (if_pos ?_))
    exact hbad.imp_right fun h => BitVec.eq_of_toNat_eq h
  · have hlegal : ¬ (data.extractLsb' 17 15 ≠ 0 ∨ data.extractLsb' 0 16 = (1 : BitVec 16)) := by
      rintro (h | h)
      · exact h hbits
      · exact hlimit (by rw [h]; rfl)
    refine congrArg Host.Outcome.next (State.setCfg_done haccepts hsettled (if_neg hlegal) ?_ rfl rfl rfl rfl
      (s.pair_answered p _))
    rw [State.answered_eq_respond s p [_]]
    rfl
  · refine congrArg Host.Outcome.next (State.setCfg_done haccepts hsettled (if_pos ((capsLegal_iff data).mpr hlegal)) ?_
      rfl rfl rfl rfl (s.pair_answered p _))
    rw [State.answered_eq_respond s p [_]]
    rfl
  · refine congrArg Host.Outcome.next (State.setCfg_refused haccepts hsettled (if_neg ?_))
    obtain ⟨n, hn, hbyte⟩ := hbad
    rw [capsLegal_iff]
    intro h
    obtain ⟨hlow, hhigh⟩ := h n hn
    omega

/-! ### Escalation -/

theorem State.applyEscalation_of_legal (s : State) {data : Word} (h : data.extractLsb' 4 4 = 0)
    (h' : data.extractLsb' 16 16 = 0) :
    s.applyEscalation data = some (s.setEscalation (data.extractLsb' 0 4) (data.extractLsb' 8 8)) := by
  simp [State.applyEscalation, h, h']

/-- Threshold and window set with escalation on after it leave queue, token and timer (R131). -/
theorem State.setEscalation_on (s : State) {t : BitVec 4} {w : BitVec 8} (ht : t ≠ 0) (hw : w ≠ 0) :
    s.setEscalation t w = { s with threshold := t, windowLen := w } := by
  have hon : ({ s with threshold := t, windowLen := w } : State).escalationOn = true := by
    simpa [State.escalationOn] using And.intro ht hw
  simp only [State.setEscalation, hon, if_true]

/-- With escalation off after it the queue is emptied and a RESERVED token becomes FREE (R131). -/
theorem State.setEscalation_off (s : State) {t : BitVec 4} {w : BitVec 8} (h : t = 0 ∨ w = 0) :
    (∀ c, s.token = .reserved c → s.setEscalation t w =
      { s with threshold := t, windowLen := w, prioQueue := [], token := .free, window := none }) ∧
    ((∀ c, s.token ≠ .reserved c) → s.setEscalation t w = { s with threshold := t, windowLen := w, prioQueue := [] }) := by
  have hoff : ({ s with threshold := t, windowLen := w } : State).escalationOn = false := by
    rcases h with rfl | rfl <;> simp [State.escalationOn]
  unfold State.setEscalation
  simp only [hoff, Bool.false_eq_true, if_false]
  refine ⟨fun c hc => ?_, fun hnot => ?_⟩
  · split
    · rfl
    · next hnot => exact absurd hc (hnot c)
  · split
    · next c hc => exact absurd hc (hnot c)
    · rfl

/-! ### Fault masks -/

/-- FLT# by ports and bits: some flag is set whose mask bit is 0 (R179). -/
theorem State.flt_iff (s : State) : s.flt = true ↔ ∃ (p : PortId) (k : Nat), k < 8 ∧
    (s.port p).flags.getLsbD k = true ∧ s.masks.getLsbD k = false := by
  have hne : ∀ x : BitVec 8, (x != 0) = true ↔ ∃ k, k < 8 ∧ x.getLsbD k = true := by
    intro x
    rw [bne_iff_ne, ne_eq, BitVec.eq_of_getLsbD_eq_iff]
    simp
  simp only [State.flt, List.any_eq_true, mem_four, true_and, hne]
  refine exists_congr fun p => exists_congr fun k => and_congr_right fun hk => ?_
  simp [State.port, hk]

theorem State.flags_answered (s : State) (p : PortId) (as : List Answer) (q : PortId) :
    ((s.answered p as).port q).flags = (s.port q).flags := by
  rw [State.port_answered]
  split
  · next h => rw [h]
  · rfl

/-- Settles O19, item by item. -/
theorem setCfgEscalationTickSourceAndFaultMasks : Obligations.SetCfgEscalationTickSourceAndFaultMasks := by
  refine ⟨fun s t p data par haccepts hsettled ht => ?_, fun s p data par haccepts hsettled => ⟨fun hbad => ?_,
    fun hbits => ?_⟩, fun s p data par haccepts hsettled => ⟨fun hbad => ?_, fun hbits => ?_⟩⟩
  · subst ht
    refine ⟨fun hbad => ?_, fun hlow hhigh hT hW => ?_, fun hlow hhigh hoff => ⟨fun c hc => ?_, fun hnot => ?_⟩⟩
    · exact congrArg Host.Outcome.next (State.setCfg_refused haccepts hsettled (if_pos hbad))
    · have happly := (s.answered p []).applyEscalation_of_legal hlow hhigh
      rw [State.setEscalation_on _ hT hW] at happly
      refine congrArg Host.Outcome.next (State.setCfg_done haccepts hsettled happly ?_ rfl rfl rfl rfl
        (s.pair_answered p _))
      rw [State.answered_eq_respond s p [_]]
      rfl
    · have happly := (s.answered p []).applyEscalation_of_legal hlow hhigh
      rw [((s.answered p []).setEscalation_off hoff).1 c hc] at happly
      refine congrArg Host.Outcome.next (State.setCfg_done haccepts hsettled happly ?_ rfl rfl rfl rfl
        (s.pair_answered p _))
      rw [State.answered_eq_respond s p [_]]
      rfl
    · have happly := (s.answered p []).applyEscalation_of_legal hlow hhigh
      rw [((s.answered p []).setEscalation_off hoff).2 hnot] at happly
      refine congrArg Host.Outcome.next (State.setCfg_done haccepts hsettled happly ?_ rfl rfl rfl rfl
        (s.pair_answered p _))
      rw [State.answered_eq_respond s p [_]]
      rfl
  · exact congrArg Host.Outcome.next (State.setCfg_refused haccepts hsettled (if_pos hbad))
  · refine congrArg Host.Outcome.next (State.setCfg_done haccepts hsettled (if_neg (not_not.mpr hbits)) ?_ rfl rfl rfl
      rfl (s.pair_answered p _))
    rw [State.answered_eq_respond s p [_]]
    rfl
  · exact congrArg Host.Outcome.next (State.setCfg_refused haccepts hsettled (if_pos hbad))
  · refine ⟨{ s.answered p [.done] with masks := data.extractLsb' 0 8 }, congrArg Host.Outcome.next
      (State.setCfg_done haccepts hsettled (if_neg (not_not.mpr hbits)) ?_ rfl rfl rfl rfl (s.pair_answered p _)), rfl, ?_⟩
    · rw [State.answered_eq_respond s p [_]]
      rfl
    · have hflags : ∀ q, (({ s.answered p [.done] with masks := data.extractLsb' 0 8 } : State).port q).flags =
          (s.port q).flags := s.flags_answered p _
      rw [State.flt_iff]
      refine exists_congr fun q => exists_congr fun k => and_congr_right fun hk => ?_
      rw [hflags]
      simp [hk]

end Sys2Proof.Machine
end

section
/-! The ends of jobs, whole (R80, R81, R103): what commit finish and the finish of a record job leave of the state. -/

namespace Sys2Proof.Machine

/-! ### Changes of ports alone -/

/-- The two states differ in their ports at most. -/
def State.OnlyPorts (s t : State) : Prop := ∃ ports, t = { s with ports := ports }

theorem State.OnlyPorts.refl (s : State) : State.OnlyPorts s s := ⟨_, rfl⟩

theorem State.OnlyPorts.trans {s t u : State} (h : State.OnlyPorts s t) (k : State.OnlyPorts t u) :
    State.OnlyPorts s u := by
  obtain ⟨_, rfl⟩ := h
  obtain ⟨ports, rfl⟩ := k
  exact ⟨ports, rfl⟩

theorem State.onlyPorts_setPort (s : State) (p : PortId) (x : PortState) : State.OnlyPorts s (s.setPort p x) :=
  ⟨_, rfl⟩

theorem State.onlyPorts_setFlags (s : State) (ps : List PortId) (f : Flag) : State.OnlyPorts s (s.setFlags ps f) :=
  foldl_invariant (State.OnlyPorts s) _ ps (fun t p _ ht => ht.trans (t.onlyPorts_setPort p _)) s (.refl s)

theorem State.onlyPorts_answerIfHeld (s : State) (held : Option PortId) (w : Word) :
    State.OnlyPorts s (s.answerIfHeld held w) := by
  cases held with
  | none => exact .refl s
  | some p => exact (s.onlyPorts_setPort p _).trans (State.onlyPorts_setPort _ p _)

/-! ### Ports, flag by flag and answer by answer -/

theorem or_or_self (x y : BitVec 8) : x ||| y ||| y = x ||| y := by rw [BitVec.or_assoc, BitVec.or_self]

/-- A flag set on some ports is set on each of them once. -/
theorem State.port_setFlags_eq (s : State) (ps : List PortId) (f : Flag) (q : PortId) : (s.setFlags ps f).port q =
    { s.port q with flags := if q ∈ ps then (s.port q).flags ||| f.word else (s.port q).flags } := by
  induction ps generalizing s with
  | nil => rfl
  | cons p ps ih =>
    have hcons : s.setFlags (p :: ps) f = (s.setFlag p f).setFlags ps f := rfl
    rw [hcons, ih, State.port_setFlag]
    by_cases hq : q = p
    · subst hq
      by_cases hmem : q ∈ ps <;> simp [hmem, or_or_self]
    · simp [hq]

theorem State.mem_served (s : State) (c : CtxId) (q : PortId) : q ∈ s.served c ↔ s.serving q = c := by
  simp [State.served]

theorem State.port_answerIfHeld (s : State) (held : Option PortId) (w : Word) (q : PortId) :
    (s.answerIfHeld held w).port q =
      { s.port q with
        cycle := if held = some q then none else (s.port q).cycle
        answers := (s.port q).answers ++ if held = some q then [.word w] else [] } := by
  cases held with
  | none => simp [State.answerIfHeld]
  | some p =>
    simp only [State.answerIfHeld, Option.elim_some, State.port_answerHeld, Option.some.injEq]
    by_cases hq : q = p
    · simp [hq]
    · simp [hq, Ne.symm hq]

/-! ### Commit finish -/

/-- Slots set free change slots and the list of their context (R67, R68). -/
theorem State.freeSlots_eq (s : State) (c : CtxId) :
    ∃ slots, s.freeSlots c = { s with slots := slots, orders := s.orders.set c [] } := by
  unfold State.freeSlots
  generalize (Vector.ofFn fun i : SlotId => if (s.order c).contains i then none else s.slots[i]) = v
  exact ⟨v, rfl⟩

section
variable (s : State) (c : CtxId) (failed : Nat)

/-- Commit finish up to the answer changes slots, lists and ports. -/
theorem State.commitAnswered_eq : s.commitAnswered c failed =
    { s with
      slots := (s.commitAnswered c failed).slots, orders := s.orders.set c []
      ports := (s.commitAnswered c failed).ports } := by
  have hports : State.OnlyPorts (s.freeSlots c) (s.commitAnswered c failed) := by
    unfold State.commitAnswered
    refine State.OnlyPorts.trans ?_ (State.onlyPorts_answerIfHeld _ _ _)
    split
    · exact .refl _
    · exact (State.onlyPorts_setFlags _ _ _).trans (State.onlyPorts_setFlags _ _ _)
  obtain ⟨slots, hfree⟩ := s.freeSlots_eq c
  rw [hfree] at hports
  generalize s.commitAnswered c failed = t at hports ⊢
  obtain ⟨ports, rfl⟩ := hports
  rfl

theorem State.port_commitAnswered (q : PortId) : (s.commitAnswered c failed).port q =
    { s.port q with
      flags := if failed ≠ 0 ∧ s.serving q = c then (s.port q).flags ||| 0x30 else (s.port q).flags
      cycle := if (s.ctx c).held = some q then none else (s.port q).cycle
      answers := (s.port q).answers ++ if (s.ctx c).held = some q then
        [.word (if failed = 0 then plainResult .committed else tornResult failed)] else [] } := by
  have hflags : ∀ x : BitVec 8, x ||| Flag.torn.word ||| Flag.memerr.word = x ||| 0x30 := by
    intro x
    rw [BitVec.or_assoc]
    rfl
  have hport : (s.freeSlots c).port q = s.port q := by simp
  unfold State.commitAnswered
  by_cases hfailed : failed = 0
  · simp [State.port_answerIfHeld, hfailed, hport]
  · by_cases hserving : s.serving q = c
    · simp [State.port_answerIfHeld, hfailed, State.port_setFlags_eq, State.mem_served, hserving, hport, hflags]
    · simp [State.port_answerIfHeld, hfailed, State.port_setFlags_eq, State.mem_served, hserving, hport]

end

/-! ### The finish of a record job -/

section
variable (s : State) (c : CtxId) (skipped memErr : Bool)

theorem State.onlyPorts_recordAnswered : State.OnlyPorts s (s.recordAnswered c skipped memErr) := by
  unfold State.recordAnswered State.recordFlagged
  refine State.OnlyPorts.trans ?_ (State.onlyPorts_answerIfHeld _ _ _)
  have hskip : State.OnlyPorts s (if skipped then s.setFlags (s.served c) .recskip else s) := by
    split
    · exact State.onlyPorts_setFlags ..
    · exact .refl s
  refine hskip.trans ?_
  simp only
  generalize (if skipped then s.setFlags (s.served c) .recskip else s) = t
  split
  · exact State.onlyPorts_setFlags ..
  · exact .refl t

/-- The flags of the finish of a record job, on each port that its context serves. -/
theorem State.port_recordFlagged (q : PortId) : (s.recordFlagged c skipped memErr).port q =
    { s.port q with
      flags := if s.serving q = c then
        (s.port q).flags ||| (if skipped then 0x80 else 0) ||| (if memErr then 0x10 else 0)
        else (s.port q).flags } := by
  have hrecskip : Flag.recskip.word = 0x80 := rfl
  have hmemerr : Flag.memerr.word = 0x10 := rfl
  unfold State.recordFlagged
  by_cases hserving : s.serving q = c
  · cases skipped <;> cases memErr <;>
      simp [State.port_setFlags_eq, State.mem_served, hserving, hrecskip, hmemerr]
  · cases skipped <;> cases memErr <;> simp [State.port_setFlags_eq, State.mem_served, hserving]

theorem State.port_recordAnswered (q : PortId) : (s.recordAnswered c skipped memErr).port q =
    { s.port q with
      flags := if s.serving q = c then
        (s.port q).flags ||| (if skipped then 0x80 else 0) ||| (if memErr then 0x10 else 0) else (s.port q).flags
      cycle := if (s.ctx c).held = some q then none else (s.port q).cycle
      answers := (s.port q).answers ++ if (s.ctx c).held = some q then
        [.word (abortResult .aborted (s.ctx c).lastCode (s.ctx c).depth)] else [] } := by
  rw [State.recordAnswered, State.port_answerIfHeld, State.port_recordFlagged]

end

/-- The drain test of a state in which the bridge state, the queue and the contexts are known (R183). -/
theorem State.drainTest_of {s u : State} (hbridge : u.bridge = s.bridge) (hjobs : u.jobs = s.jobs) :
    u.drainTest = u.setBridge (if s.bridge = .draining ∧ s.jobs = [] ∧
      ∀ d, (u.ctx d).state = .idle ∨ (u.ctx d).state = .doomed then .quiesced else s.bridge) := by
  rw [State.drainTest_eq]
  congr 1
  simp only [Bool.and_eq_true, decide_eq_true_eq, State.drained_iff, hbridge, hjobs]

/-- Settles O45: both finishes, field by field. -/
theorem jobFinishes : Obligations.JobFinishes := by
  intro s c x bridge hx hbridge
  subst hx
  refine ⟨fun failed t ht => ?_, fun skipped memErr t ht => ?_, rfl⟩
  · obtain ⟨hctx, -, hslots, hb, hj, -, -⟩ := s.commitAnswered_fields c failed
    have hfields := s.commitAnswered_eq c failed
    have hport := s.port_commitAnswered c failed
    have hslot : ∀ k : SlotId, t.slots[k] = if k ∈ s.order c then none else s.slots[k] := by
      subst ht
      simp
    rw [State.commitFinish_eq, State.idle, hctx,
      State.drainTest_of (s := s) (u := (s.commitAnswered c failed).setCtx c (s.ctx c).toIdle) hb hj] at ht
    generalize s.commitAnswered c failed = u at *
    refine ⟨?_, hslot, fun q => ?_⟩
    · rw [hbridge, ht, hfields]
      rfl
    · rw [ht]
      exact hport q
  · obtain ⟨hctx, hb, hj, -, -⟩ := s.recordAnswered_fields c skipped memErr
    have hports := s.onlyPorts_recordAnswered c skipped memErr
    have hport := s.port_recordAnswered c skipped memErr
    have hrecord : (s.ctx c).afterRecord = if (s.ctx c).held ≠ none ∨ (s.ctx c).release = true then (s.ctx c).toIdle
        else { s.ctx c with state := .doomed } := by
      simp only [Context.afterRecord, Bool.or_eq_true, Option.isSome_iff_ne_none]
    rw [State.recordFinish_eq, hrecord,
      State.drainTest_of (s := s) (u := (s.recordAnswered c skipped memErr).setCtx c _) hb hj] at ht
    generalize s.recordAnswered c skipped memErr = u at *
    refine ⟨?_, fun q => ?_⟩
    · obtain ⟨ports, rfl⟩ := hports
      rw [hbridge, ht]
      rfl
    · rw [ht]
      exact hport q

end Sys2Proof.Machine
end

section
/-! Port resets (R25, R26, R140, R157) and quiesce (R182, R183, R184). -/

namespace Sys2Proof.Machine

/-! ### The port's own share of a port reset -/

/-- The port's own share of a port reset, written out (R34, R144, R157, R171). -/
theorem State.resetPort_eq (s : State) (p : PortId) : s.resetPort p =
    { s with
      ports := s.ports.set p
        { cycle := none, pair := none, pendRec := none, flags := (s.port p).flags, resetPin := true, answers := [] }
      reqs := s.reqs.set p none
      bus := s.bus.map fun b => if b.owner = .port p then { b with orphan := true } else b
      inFlight := (s.reqs.get p).elim s.inFlight fun r =>
        if r.burst.write = true ∧ r.closing = false then s.inFlight.erase (p, lineOf r.burst.addr) else s.inFlight } := by
  unfold State.resetPort State.dropInFlight
  cases h : s.reqs.get p with
  | none => rfl
  | some r =>
    by_cases hw : r.burst.write = true ∧ r.closing = false
    · have hw' : (r.burst.write && !r.closing) = true := by simpa using hw
      simp only [hw', if_true, Option.elim_some, if_pos hw]
      rfl
    · have hw' : ¬ (r.burst.write && !r.closing) = true := by simpa using hw
      simp only [hw', Option.elim_some, if_neg hw]
      rfl

theorem State.ctx_resetPort (s : State) (p : PortId) (c : CtxId) : (s.resetPort p).ctx c = s.ctx c := by
  rw [State.resetPort_eq]
  rfl

/-! ### What no port reset and no settling changes of a port -/

/-- Between two states: pairs, pending record addresses and reset pins stand, writes in flight too, a BUSY bus keeps its
burst, and no cycle and no request comes to a port that has none. -/
structure State.KeepsPorts (s t : State) : Prop where
  pair : ∀ q, (t.port q).pair = (s.port q).pair
  pendRec : ∀ q, (t.port q).pendRec = (s.port q).pendRec
  resetPin : ∀ q, (t.port q).resetPin = (s.port q).resetPin
  cycle : ∀ q, (s.port q).cycle = none → (t.port q).cycle = none
  reqs : ∀ q, s.reqs.get q = none → t.reqs.get q = none
  bus : ∀ b, s.bus = some b → t.bus = some b
  inFlight : t.inFlight = s.inFlight

theorem State.KeepsPorts.refl (s : State) : State.KeepsPorts s s :=
  ⟨fun _ => rfl, fun _ => rfl, fun _ => rfl, fun _ h => h, fun _ h => h, fun _ h => h, rfl⟩

theorem State.KeepsPorts.trans {s t u : State} (h : State.KeepsPorts s t) (k : State.KeepsPorts t u) :
    State.KeepsPorts s u :=
  ⟨fun q => (k.pair q).trans (h.pair q), fun q => (k.pendRec q).trans (h.pendRec q),
    fun q => (k.resetPin q).trans (h.resetPin q), fun q hq => k.cycle q (h.cycle q hq),
    fun q hq => k.reqs q (h.reqs q hq), fun b hb => k.bus b (h.bus b hb), k.inFlight.trans h.inFlight⟩

/-- Ports with other flags, the memory side as it was. -/
theorem State.KeepsPorts.ofFlags {s t : State}
    (hport : ∀ q, t.port q = { s.port q with flags := (t.port q).flags }) (hreqs : t.reqs = s.reqs)
    (hbus : t.bus = s.bus) (hflight : t.inFlight = s.inFlight) : State.KeepsPorts s t :=
  ⟨fun q => by rw [hport], fun q => by rw [hport], fun q => by rw [hport], fun q h => by rw [hport]; exact h,
    fun q h => hreqs ▸ h, fun b h => hbus ▸ h, hflight⟩

theorem State.abort_keepsPorts (s : State) (c : CtxId) (code : AbortCode) (cause : Option Addr)
    (party : Option Party) : State.KeepsPorts s (s.abort c code cause party) :=
  .ofFlags (s.port_abort c code cause party) (by simp) (by simp) (by simp)

theorem State.abortAll_keepsPorts (s : State) (cs : List CtxId) (code : AbortCode) (cause : Option Addr)
    (party : Option Party) : State.KeepsPorts s (s.abortAll cs code cause party) :=
  .ofFlags (s.port_abortAll cs code cause party) (by simp) (by simp) (by simp)

theorem State.commitFinish_keepsPorts (s : State) (c : CtxId) (n : Nat) : State.KeepsPorts s (s.commitFinish c n) := by
  have hport : ∀ q, (s.commitFinish c n).port q = (s.commitAnswered c n).port q := fun q => by
    rw [State.commitFinish_eq, State.drainTest_eq]
    rfl
  refine ⟨fun q => ?_, fun q => ?_, fun q => ?_, fun q hq => ?_, fun q hq => ?_, fun b hb => ?_, by simp⟩
  · rw [hport, State.port_commitAnswered]
  · rw [hport, State.port_commitAnswered]
  · rw [hport, State.port_commitAnswered]
  · simp [hport, State.port_commitAnswered, hq]
  · simpa using hq
  · simpa using hb

theorem State.recordFinish_keepsPorts (s : State) (c : CtxId) (skipped memErr : Bool) :
    State.KeepsPorts s (s.recordFinish c skipped memErr) := by
  have hport : ∀ q, (s.recordFinish c skipped memErr).port q = (s.recordAnswered c skipped memErr).port q := fun q => by
    rw [State.recordFinish_eq, State.drainTest_eq]
    rfl
  refine ⟨fun q => ?_, fun q => ?_, fun q => ?_, fun q hq => ?_, fun q hq => ?_, fun b hb => ?_, by simp⟩
  · rw [hport, State.port_recordAnswered]
  · rw [hport, State.port_recordAnswered]
  · rw [hport, State.port_recordAnswered]
  · simp [hport, State.port_recordAnswered, hq]
  · simpa using hq
  · simpa using hb

/-- Settling keeps what stands between two states of the ports. -/
theorem State.settleKeeps_keepsPorts (s : State) : State.SettleKeeps (State.KeepsPorts s) where
  start _ _ _ _ _ h _ _ _ _ := ⟨h.pair, h.pendRec, h.resetPin, h.cycle, h.reqs, h.bus, h.inFlight⟩
  commitDone t j rest n h _ _ :=
    (State.KeepsPorts.trans (t := t.setJobs rest) ⟨h.pair, h.pendRec, h.resetPin, h.cycle, h.reqs, h.bus, h.inFlight⟩
      ((t.setJobs rest).commitFinish_keepsPorts j.ctx n))
  recordDone t j rest h _ _ :=
    (State.KeepsPorts.trans (t := t.setJobs rest) ⟨h.pair, h.pendRec, h.resetPin, h.cycle, h.reqs, h.bus, h.inFlight⟩
      ((t.setJobs rest).recordFinish_keepsPorts j.ctx true false))
  moved _ h := ⟨h.pair, h.pendRec, h.resetPin, h.cycle, h.reqs, h.bus, h.inFlight⟩
  grantPort t p r h hb _ := by
    refine ⟨h.pair, h.pendRec, h.resetPin, h.cycle, fun q hq => ?_, fun b hbus => ?_, h.inFlight⟩
    · simp [State.setReq, h.reqs q hq]
    · simp [h.bus b hbus] at hb
  grantCommit t c n f k b rest h hb _ :=
    ⟨h.pair, h.pendRec, h.resetPin, h.cycle, h.reqs, fun b' hbus => by simp [h.bus b' hbus] at hb, h.inFlight⟩
  grantRecord t c a i b rest h hb _ _ :=
    State.KeepsPorts.trans (t := (t.setJobs (⟨c, .record a i, .writing⟩ :: rest)).setBus (some (busOf .engine b false)))
      ⟨h.pair, h.pendRec, h.resetPin, h.cycle, h.reqs, fun b' hbus => by simp [h.bus b' hbus] at hb, h.inFlight⟩
      (State.abortAll_keepsPorts _ _ _ _ _)

theorem State.settle_keepsPorts (s : State) : State.KeepsPorts s s.settle :=
  State.settle_keeps s.settleKeeps_keepsPorts (.refl s)

/-- After its own share a port reset changes of the ports flags alone. -/
theorem State.portResetTaken_keepsPorts (s : State) (p : PortId) : State.KeepsPorts (s.resetPort p) (s.portResetTaken p) := by
  have hsame : ∀ (t : State) (c : CtxId) (x : Context), State.KeepsPorts t (t.setCtx c x) := fun t c x =>
    .ofFlags (fun _ => rfl) rfl rfl rfl
  have hctx : State.KeepsPorts (s.resetPort p) (if s.joined p then (s.resetPort p).resetJoined (s.serving p) p
      else (s.resetPort p).resetSeparate (s.serving p) p) := by
    unfold State.resetJoined State.resetSeparate
    simp only
    split
    · split
      · exact .refl _
      · exact .refl _
      · exact State.abort_keepsPorts ..
      · exact hsame ..
      · exact hsame ..
    · split
      · exact .refl _
      · exact (hsame ..).trans (State.abort_keepsPorts ..)
      · exact hsame ..
      · exact hsame ..
      · exact hsame ..
  unfold State.portResetTaken
  simp only
  refine hctx.trans ?_
  generalize (if s.joined p then (s.resetPort p).resetJoined (s.serving p) p
      else (s.resetPort p).resetSeparate (s.serving p) p) = t
  refine State.KeepsPorts.ofFlags (fun q => ?_) (by simp) (by simp) (by simp)
  simp only [State.port_clearFlags]
  split
  · next h => simp [h]
  · simp

theorem exec_portReset (s : State) (p : PortId) : exec (.portReset p) s =
    .next (if (s.port p).resetPin then s else (s.portResetTaken p).settle) := rfl

/-- Settles O5: the port's own share, and that neither what follows in the reset nor what settles after it undoes it. -/
theorem portResetClearsThePort : Obligations.PortResetClearsThePort := by
  refine ⟨fun s p => ⟨fun hpin => ?_, fun hpin => ?_⟩, fun s p => ?_⟩
  · rw [exec_portReset, if_pos hpin]
  · have hk : State.KeepsPorts (s.resetPort p) (s.portResetTaken p).settle :=
      (s.portResetTaken_keepsPorts p).trans (State.settle_keepsPorts _)
    rw [exec_portReset, if_neg (by simp [hpin])]
    generalize (s.portResetTaken p).settle = t at hk
    have hself : (s.resetPort p).port p =
        { cycle := none, pair := none, pendRec := none, flags := (s.port p).flags, resetPin := true, answers := [] } := by
      rw [State.resetPort_eq]
      exact Four.get_set_same ..
    have hother : ∀ q, q ≠ p → (s.resetPort p).port q = s.port q := by
      intro q hq
      rw [State.resetPort_eq]
      exact (Four.get_set ..).trans (if_neg hq)
    refine ⟨t, rfl, hk.cycle p (by rw [hself]), ?_, ?_, ?_, hk.reqs p ?_, fun b hb => hk.bus _ ?_, fun r hr => ?_,
      fun q hq => ?_⟩
    · rw [hk.pair, hself]
    · rw [hk.pendRec, hself]
    · rw [hk.resetPin, hself]
    · rw [State.resetPort_eq]
      exact Four.get_set_same ..
    · rw [State.resetPort_eq]
      simp [hb]
    · rw [hk.inFlight, State.resetPort_eq, hr]
      rfl
    · rw [hk.pair, hk.pendRec, hk.resetPin, hother q hq]
      exact ⟨rfl, rfl, rfl⟩
  · rw [State.resetPort_eq]
    cases s.reqs.get p <;> rfl

end Sys2Proof.Machine
end

section
/-! What a port reset does to the serving context (R25, R26, R140, R158), and the quiesce request (R182, R183,
R184). -/

namespace Sys2Proof.Machine

/-! ### A port reset, by the state of the serving context -/

theorem exec_portReset_of_pin_low {s : State} {p : PortId} (hpin : (s.port p).resetPin = false) :
    exec (.portReset p) s = .next (s.portResetTaken p).settle := by
  rw [exec_portReset, if_neg (by simp [hpin])]

theorem State.portResetTaken_separate {s : State} {p : PortId} (h : s.joined p = false) : s.portResetTaken p =
    (((s.resetPort p).resetSeparate (s.serving p) p).leaveEscalation (s.serving p)).clearFlags p 0xFF := by
  unfold State.portResetTaken
  simp [h]

theorem State.portResetTaken_joined {s : State} {p : PortId} (h : s.joined p = true) : s.portResetTaken p =
    (((s.resetPort p).resetJoined (s.serving p) p).leaveEscalation (s.serving p)).clearFlags p 0xFF := by
  unfold State.portResetTaken
  simp [h]

theorem Context.discardHeld_eq (x : Context) (p : PortId) :
    x.discardHeld p = { x with held := if x.held = some p then none else x.held } := by
  unfold Context.discardHeld
  split <;> rfl

/-- Settles O6, by the pairing and the state of the serving context. -/
theorem portResetByContextState : Obligations.PortResetByContextState := by
  refine ⟨fun s p c x hpin hsep hc hx => ?separate, fun s p c x hpin hjoin hc hx => ?joined, fun s t c ht => ?leaves⟩
  case separate =>
    have hctx : (s.resetPort p).ctx c = x := by rw [State.ctx_resetPort, hx]
    rw [exec_portReset_of_pin_low hpin, State.portResetTaken_separate hsep, hc]
    unfold State.resetSeparate
    simp only [hctx, Context.discardHeld_eq]
    refine ⟨fun h => ?_, fun h => ?_, fun h => ?_, fun h => ?_, fun h => ?_⟩ <;> simp only [h]
    · simp only [State.idle, hctx, Context.toIdle_eq]
  case joined =>
    have hctx : (s.resetPort p).ctx c = x := by rw [State.ctx_resetPort, hx]
    rw [exec_portReset_of_pin_low hpin, State.portResetTaken_joined hjoin, hc]
    unfold State.resetJoined
    simp only [hctx, Context.discardHeld_eq]
    refine ⟨fun h => ?_, fun h => ?_, fun h => ?_⟩
    · simp only [h]
    · rcases h with h | h <;> simp only [h]
    · rcases h with h | h <;> simp only [h]
  case leaves =>
    obtain ⟨hother, howned⟩ := State.leaveEscalation_eq ht
    refine ⟨hother, fun h => ⟨(howned h).1, fun d r hs hq => ?_⟩⟩
    have hon : s.escalationOn := by
      have hqueue : s.prioQueue.filter (· ≠ c) = d :: r := by rw [← hq, ht]
      cases hqs : s.prioQueue with
      | nil => simp [hqs] at hqueue
      | cons e l => exact State.escalationOn_of_queued hs hqs
    exact (howned h).2 d r hq hon

/-! ### The quiesce request -/

theorem exec_qreqAsserted (s : State) : exec .qreqAsserted s =
    .next (if s.rst then { s with qreq := true } else ({ s with qreq := true } : State).quiesceRequest.settle) := rfl

/-- What a quiesced group leaves behind: no context OPEN, the context's last codes fixed, and the bridge told by the
drain condition (R182, R183). -/
structure State.Drains (code : CtxId → Option AbortCode) (t : State) : Prop where
  closed : ∀ c, (t.ctx c).state ≠ .opened
  lastCode : ∀ c, (t.ctx c).lastCode = code c
  bridge : t.bridge = if t.drained then .quiesced else .draining

theorem State.drained_of_jobs {t : State} {j : Job} {rest : List Job} (h : t.jobs = j :: rest) : t.drained = false := by
  simp [State.drained, h]

/-- While a job is queued a draining bridge is DRAINING. -/
theorem State.Drains.draining {code : CtxId → Option AbortCode} {t : State} (h : t.Drains code) {j : Job}
    {rest : List Job} (hj : t.jobs = j :: rest) : t.bridge = .draining := by
  rw [h.bridge, State.drained_of_jobs hj]
  rfl

/-- A DRAINING bridge that has tested the drain condition. -/
theorem State.Drains.ofDrainTest {code : CtxId → Option AbortCode} {t : State} (hb : t.bridge = .draining)
    (hclosed : ∀ c, (t.ctx c).state ≠ .opened) (hcode : ∀ c, (t.ctx c).lastCode = code c) :
    t.drainTest.Drains code := by
  rw [State.drainTest_eq, hb]
  refine ⟨hclosed, hcode, ?_⟩
  simp [State.drained, State.setBridge]
  rfl

/-- A step that leaves contexts and bridge, with a job queued before and after. -/
theorem State.Drains.frame {code : CtxId → Option AbortCode} {t u : State} (h : t.Drains code)
    (hctx : ∀ c, u.ctx c = t.ctx c) (hbridge : u.bridge = t.bridge) {j k : Job} {rest : List Job}
    (hj : t.jobs = j :: rest) (hk : u.jobs = k :: rest) : u.Drains code := by
  refine ⟨fun c => by rw [hctx]; exact h.closed c, fun c => by rw [hctx]; exact h.lastCode c, ?_⟩
  rw [hbridge, h.draining hj, State.drained_of_jobs hk]
  rfl

theorem Context.lastCode_afterRecord (x : Context) : x.afterRecord.lastCode = x.lastCode := by
  unfold Context.afterRecord
  split <;> rfl

theorem Context.afterRecord_not_opened (x : Context) : x.afterRecord.state ≠ .opened := by
  unfold Context.afterRecord
  split <;> simp [Context.toIdle_eq]

/-- The end of a job leaves its context closed with the code it had, and tests the drain condition (R183). -/
theorem State.Drains.jobDone {code : CtxId → Option AbortCode} {t u : State} (h : t.Drains code) {j : Job}
    {rest : List Job} (hj : t.jobs = j :: rest) (hbridge : u.bridge = t.bridge) (hctx : ∀ d, u.ctx d = t.ctx d)
    {c : CtxId} {x : Context} (hx : x.state ≠ .opened) (hcode : x.lastCode = (t.ctx c).lastCode) :
    (u.setCtx c x).drainTest.Drains code := by
  refine .ofDrainTest (by simpa [hbridge] using h.draining hj) (fun d => ?_) fun d => ?_
  · by_cases hd : d = c
    · simpa [hd] using hx
    · simpa [hd, hctx] using h.closed d
  · by_cases hd : d = c
    · simpa [hd, hcode] using h.lastCode c
    · simpa [hd, hctx] using h.lastCode d

/-- Settling keeps a draining bridge so. -/
theorem State.settleKeeps_drains (code : CtxId → Option AbortCode) : State.SettleKeeps (State.Drains code) where
  start s j k rest b h hj _ _ _ := h.frame (fun _ => rfl) rfl hj (k := k) rfl
  commitDone s j rest n h hj _ := by
    obtain ⟨hctx, -, -, hbridge, -⟩ := (s.setJobs rest).commitAnswered_fields j.ctx n
    rw [State.commitFinish_eq]
    refine h.jobDone hj hbridge hctx ?_ ?_
    · simp [Context.toIdle_eq]
    · rw [hctx]
      rfl
  recordDone s j rest h hj _ := by
    obtain ⟨hctx, hbridge, -⟩ := (s.setJobs rest).recordAnswered_fields j.ctx true false
    rw [State.recordFinish_eq]
    exact h.jobDone hj hbridge hctx (Context.afterRecord_not_opened _) (Context.lastCode_afterRecord _)
  moved _ h := ⟨h.closed, h.lastCode, h.bridge⟩
  grantPort _ _ _ h _ _ := ⟨h.closed, h.lastCode, h.bridge⟩
  grantCommit s c n f k b rest h _ hj := h.frame (fun _ => rfl) rfl hj (k := ⟨c, .commit n f k, .writing⟩) rfl
  grantRecord s c a i b rest h _ hj _ := by
    have hframe := h.frame (u := (s.setJobs (⟨c, .record a i, .writing⟩ :: rest)).setBus (some (busOf .engine b false)))
      (fun _ => rfl) rfl hj (k := ⟨c, .record a i, .writing⟩) rfl
    generalize (s.setJobs (⟨c, .record a i, .writing⟩ :: rest)).setBus (some (busOf .engine b false)) = u at hframe
    have hnone : u.holders (lineOf a) = [] := List.eq_nil_iff_forall_not_mem.mpr fun d hd =>
      hframe.closed d ((State.mem_holders ..).mp hd).1
    rw [State.invade, hnone, State.abortAll_none]
    exact hframe

theorem Context.lastCode_afterAbort (x : Context) (code : AbortCode) : (x.afterAbort code).lastCode = some code := by
  unfold Context.afterAbort
  simp only
  split_ifs <;> rfl

/-- After several aborts a context was aborted with the code, or is what it was. -/
theorem State.ctx_abortAll_cases (s : State) (cs : List CtxId) (code : AbortCode) (d : CtxId) :
    let t := s.abortAll cs code
    ((t.ctx d).lastCode = some code ∧ (t.ctx d).state ≠ .opened) ∨ t.ctx d = s.ctx d := by
  refine State.abortAll_invariant (fun t =>
    ((t.ctx d).lastCode = some code ∧ (t.ctx d).state ≠ .opened) ∨ t.ctx d = s.ctx d) cs code none none
    (fun t c _ ht => ?_) (fun _ _ h => h) s (.inr rfl)
  by_cases hopen : (t.ctx c).state = .opened
  · rw [State.abort_open hopen, State.ctx_takeAbort]
    split
    · exact .inl ⟨Context.lastCode_afterAbort _ _, Context.afterAbort_not_opened _ _⟩
    · exact ht
  · rwa [State.abort_not_open hopen]

/-- Entry to DRAINING: every OPEN context, and no other, is aborted with QUIESCE (R182, R183). -/
theorem State.drains_enterDraining (s : State) : s.enterDraining.Drains fun c =>
    if (s.ctx c).state = .opened then some .quiesce else (s.ctx c).lastCode := by
  have hmem : ∀ c, c ∈ (s.setBridge .draining).openCtxs ↔ (s.ctx c).state = .opened := fun c => by
    have : c ∈ four := by revert c; decide
    simp [State.openCtxs, this]
  unfold State.enterDraining
  refine .ofDrainTest (by simp) (fun c => ?_) fun c => ?_
  · by_cases hopen : (s.ctx c).state = .opened
    · exact State.abortAll_closes _ _ _ _ _ c ((hmem c).mpr hopen)
    · rw [State.ctx_abortAll_of_not_mem _ _ _ _ _ (fun h => hopen ((hmem c).mp h))]
      exact hopen
  · split
    · next hopen =>
      have hclosed := State.abortAll_closes (s.setBridge .draining) .quiesce none none _ c ((hmem c).mpr hopen)
      rcases State.ctx_abortAll_cases (s.setBridge .draining) (s.setBridge .draining).openCtxs .quiesce c with h | h
      · exact h.1
      · rw [h] at hclosed
        exact absurd hopen hclosed
    · next hopen =>
      rw [State.ctx_abortAll_of_not_mem _ _ _ _ _ (fun h => hopen ((hmem c).mp h))]
      rfl

theorem State.if_drained {α : Type} (s : State) (a b : α) : (if s.drained then a else b) =
    if s.jobs = [] ∧ ∀ c, (s.ctx c).state = .idle ∨ (s.ctx c).state = .doomed then a else b :=
  if_congr s.drained_iff rfl rfl

/-- Settles O42: what stands still by the quiet state, what is aborted by the order of the aborts. -/
theorem quiesceRequest : Obligations.QuiesceRequest := by
  refine ⟨fun s => ⟨rfl, fun hrst => ?_, fun hrst hs hb => ?_, fun hrst hs hb hnone => ?_⟩,
    fun s hrst hb => ⟨?_, ?_⟩⟩
  · rw [exec_qreqAsserted, if_pos hrst]
  · have hkept : ({ s with qreq := true } : State).quiesceRequest = { s with qreq := true } := if_neg hb
    rw [exec_qreqAsserted, if_neg (by simp [hrst]), hkept]
    exact congrArg Host.Outcome.next (State.settle_of_quiet hs rfl rfl rfl rfl fun _ => rfl)
  · rw [exec_qreqAsserted, if_neg (by simp [hrst]), State.quiesceRequest_of_none_open (s := { s with qreq := true }) hb hnone,
      State.if_drained]
    exact congrArg Host.Outcome.next (State.settle_of_quiet hs rfl rfl rfl rfl fun _ => rfl)
  all_goals
    have htaken : exec .qreqAsserted s = .next ({ s with qreq := true } : State).enterDraining.settle := by
      have hrun : ({ s with qreq := true } : State).quiesceRequest = ({ s with qreq := true } : State).enterDraining :=
        if_pos hb
      rw [exec_qreqAsserted, if_neg (by simp [hrst]), hrun]
    rw [htaken]
  · obtain ⟨order, n, hperm, heq⟩ := State.abortAll_order (({ s with qreq := true } : State).setBridge .draining)
      (({ s with qreq := true } : State).setBridge .draining).openCtxs .quiesce none none
    refine ⟨order, n, hperm, ?_⟩
    unfold State.enterDraining
    simp only [heq]
    rfl
  · obtain ⟨hclosed, hcode, hbridge⟩ := State.settle_keeps (State.settleKeeps_drains _)
      ({ s with qreq := true } : State).drains_enterDraining
    exact ⟨_, rfl, fun c => ⟨hclosed c, hcode c⟩, by rw [hbridge, State.if_drained]⟩

end Sys2Proof.Machine
end

section
/-! The abort of a group, whole (R88, R91, R94), the abort notice (R133), and the ticks (R118 to R126, R137). -/

namespace Sys2Proof.Machine

/-! ### The abort of an OPEN group, whole -/

/-- In the Contention Unit alone an abort notice changes the state (R133). -/
theorem State.abortNotice_only (s : State) (c : CtxId) (code : AbortCode) (b : Bool) : s.abortNotice c code b =
    { s with
      counters := (s.abortNotice c code b).counters, prioQueue := (s.abortNotice c code b).prioQueue
      token := (s.abortNotice c code b).token, window := (s.abortNotice c code b).window } := by
  have h := s.abortNotice_frame c code b
  generalize s.abortNotice c code b = t at h
  cases t
  simp only [State.mk.injEq] at h ⊢
  tauto

/-- What an abort changes before its context is sent on (R91). -/
theorem State.beforeGoing_eq (s : State) (c : CtxId) (code : AbortCode) : ∃ ports slots, s.beforeGoing c code =
    { s.abortNotice c code (s.ctx c).bounded with
      ages := s.ages.filter (· ≠ c), readSets := s.readSets.set c [], orders := s.orders.set c []
      ports := ports, slots := slots } := by
  have hframe : (s.abortNotice c code (s.ctx c).bounded).ages = s.ages ∧
      (s.abortNotice c code (s.ctx c).bounded).readSets = s.readSets ∧
      (s.abortNotice c code (s.ctx c).bounded).orders = s.orders := by simp
  unfold State.beforeGoing
  generalize s.abortNotice c code (s.ctx c).bounded = u at hframe
  obtain ⟨hages, hreads, horders⟩ := hframe
  obtain ⟨slots, hslots⟩ := u.freeSlots_eq c
  simp only [hslots, ← hages, ← hreads, ← horders]
  split
  · obtain ⟨ports, hports⟩ := State.onlyPorts_setFlags
      (({ u with slots := slots, orders := u.orders.set c [] }.setReads c []).setAges (u.ages.filter (· ≠ c))) (State.served
        (({ u with slots := slots, orders := u.orders.set c [] }.setReads c []).setAges (u.ages.filter (· ≠ c))) c) .notice
    exact ⟨ports, slots, hports⟩
  · exact ⟨u.ports, slots, rfl⟩

theorem AbortCode.cls_cases (code : AbortCode) : code.cls = 1 ∨ code.cls = 2 ∨ code.cls = 3 := by
  cases code <;> simp [AbortCode.cls]

/-- The classes of which an aborted group's notice value tells (R95). -/
theorem noticeAllows_iff (notice : Nat) (code : AbortCode) : noticeAllows notice code.cls = true ↔
    notice = 0 ∨ notice = 1 ∧ code.cls ≠ 3 ∨ notice ≠ 0 ∧ code.cls = 1 := by
  unfold noticeAllows
  rcases code.cls_cases with h | h | h <;> rw [h] <;> split_ifs <;> simp_all

/-- Before the context is sent on NOTICE is set on the served ports, where the notice value allows it (R91, R95). -/
theorem State.port_beforeGoing (s : State) (c : CtxId) (code : AbortCode) (p : PortId) :
    (s.beforeGoing c code).port p =
      { s.port p with
        flags := if s.serving p = c ∧ noticeAllows (s.ctx c).notice code.cls then (s.port p).flags ||| 1
          else (s.port p).flags } := by
  have hport : ∀ (u : State), u.ports = s.ports → u.port p = s.port p := fun u h => by rw [State.port, State.port, h]
  unfold State.beforeGoing
  simp only
  split
  · next hallows =>
    rw [State.port_setFlags_eq, hport _ (by simp), show Flag.notice.word = 1 from rfl]
    simp only [State.mem_served, hallows, and_true]
    rw [State.serving_congr (s := s) (by simp) (by simp)]
  · next hallows =>
    rw [hport _ (by simp)]
    simp [hallows]

theorem Context.afterAbort_of_record {x : Context} {a : Addr} (h : x.recAddr = some a) (code : AbortCode) :
    x.afterAbort code = { x with state := .aborting, lastCode := some code } := by
  simp [Context.afterAbort, h]

theorem Context.afterAbort_of_none {x : Context} (h : x.recAddr = none) (code : AbortCode) : x.afterAbort code =
    if x.release then { x with lastCode := some code }.toIdle else { x with state := .doomed, lastCode := some code } := by
  simp [Context.afterAbort, h]

theorem State.abortJobs_of_none {s : State} {c : CtxId} (h : (s.ctx c).recAddr = none) (code : AbortCode)
    (cause : Option Addr) (party : Option Party) : s.abortJobs c code cause party = [] := by
  simp [State.abortJobs, h]

theorem State.abortJobs_of_record {s : State} {c : CtxId} {a : Addr} (h : (s.ctx c).recAddr = some a)
    (code : AbortCode) (cause : Option Addr) (party : Option Party) : s.abortJobs c code cause party =
    [⟨c, .record a (s.image c code cause party ((s.abortNotice c code (s.ctx c).bounded).counters.get c)),
      .waiting⟩] := by
  simp [State.abortJobs, h]

/-- What the abort of an OPEN group can change of the state. -/
theorem State.takeAbort_only (s : State) (c : CtxId) (code : AbortCode) (cause : Option Addr) (party : Option Party) :
    let t := s.takeAbort c code cause party
    t = { s with
      ctxs := t.ctxs, ages := t.ages, readSets := t.readSets, slots := t.slots, orders := t.orders, jobs := t.jobs
      ports := t.ports, counters := (s.abortNotice c code (s.ctx c).bounded).counters
      prioQueue := (s.abortNotice c code (s.ctx c).bounded).prioQueue
      token := (s.abortNotice c code (s.ctx c).bounded).token
      window := (s.abortNotice c code (s.ctx c).bounded).window } := by
  obtain ⟨ports, slots, hbefore⟩ := s.beforeGoing_eq c code
  rw [State.abortNotice_only] at hbefore
  rw [State.takeAbort_eq, hbefore]
  rfl

/-- Settles O37: each field of the abort by its own rule. -/
theorem abortEndsTheGroup : Obligations.AbortEndsTheGroup := by
  refine ⟨fun s c code cause party => ⟨fun h => State.abort_not_open h code cause party, fun h => State.abort_open h code cause party⟩,
    State.abortAll_order, ?_⟩
  intro s t c code cause party x hx hopen ht
  subst hx
  rw [State.abort_open hopen] at ht
  subst ht
  refine ⟨s.takeAbort_only c code cause party, by simp, by simp, by simp, fun d hd => by simp [hd], fun i => ?_,
    fun a ha => ⟨?_, ?_⟩, fun hnone => ⟨?_, fun hrel => ?_, fun hrel => ?_⟩, fun p => ?_⟩
  · rw [Fin.getElem_fin, State.getElem_slots_takeAbort]
  · rw [State.ctx_takeAbort, if_pos rfl, Context.afterAbort_of_record ha]
  · rw [State.jobs_takeAbort, State.abortJobs_of_record ha, (s.contention_takeAbort c code cause party).2.2.2]
    rfl
  · rw [State.jobs_takeAbort, State.abortJobs_of_none hnone, List.append_nil]
  · simp [Context.afterAbort_of_none hnone, hrel]
  · simp [Context.afterAbort_of_none hnone, hrel, Context.toIdle_eq]
  · have hport : (s.takeAbort c code cause party).port p = (s.beforeGoing c code).port p := by
      rw [State.takeAbort_eq]
      rfl
    rw [hport, State.port_beforeGoing]
    simp only [noticeAllows_iff]

/-! ### The abort notice -/

theorem AbortCode.counts_iff (code : AbortCode) :
    code.counts = true ↔ code = .conflict ∨ code = .invaded ∨ code = .timeout := by
  cases code <;> simp [AbortCode.counts]

theorem State.countAbort_eq (s : State) (c : CtxId) (counting : Bool) : s.countAbort c counting =
    { s with
      counters := s.counters.set c (if counting then min 15 (s.counters.get c + 1) else s.counters.get c) } := by
  cases counting
  · simp [State.countAbort]
  · rfl

theorem State.freeIfHeld_eq (s : State) (c : CtxId) : s.freeIfHeld c =
    { s with
      token := if s.token = .held c then .free else s.token
      window := if s.token = .held c then none else s.window } := by
  unfold State.freeIfHeld
  split <;> rfl

/-- No grant without a FREE token and a queued context (R135). -/
theorem State.grantToken_of_still {s : State} (h : s.token ≠ .free ∨ s.prioQueue = []) : s.grantToken = s := by
  unfold State.grantToken
  split
  · simp_all
  · rfl

/-- Settles O38: count, end of HELD, queueing, then the grant. -/
theorem abortNoticeCountsAndQueues : Obligations.AbortNoticeCountsAndQueues := by
  intro s t c code b counting n token queue ht hs hcounting hn htoken hqueue
  have hcounts : (b && code.counts) = counting :=
    Bool.eq_iff_iff.mpr (by rw [hcounting, Bool.and_eq_true, AbortCode.counts_iff])
  have hsteps : t = ({ s with
      counters := s.counters.set c n, token := token, prioQueue := queue
      window := if s.token = .held c then none else s.window } : State).grantToken := by
    rw [ht, State.abortNotice_eq, hcounts, State.countAbort_eq, ← hn, State.freeIfHeld_eq]
    simp only [← htoken]
    congr 1
    rw [hqueue]
    have hheld : token ≠ .held c := by
      rw [htoken]
      split
      · simp
      · assumption
    have hiff : (counting && (s.threshold != 0 && s.windowLen != 0) && decide (s.threshold.toNat ≤ n) &&
        !(decide (token = .held c) || decide (token = .reserved c)) && !s.prioQueue.contains c) = true ↔
        (counting = true ∧ s.threshold ≠ 0 ∧ s.windowLen ≠ 0 ∧ s.threshold.toNat ≤ n ∧ token ≠ .reserved c ∧
          c ∉ s.prioQueue) := by
      simp [hheld]
      tauto
    simp only [State.setQueue, State.ownsToken, State.escalationOn, Four.get_set_same]
    rw [if_congr hiff rfl rfl]
    split <;> rfl
  rw [hsteps]
  refine ⟨fun h => State.grantToken_of_still h, fun d r hfree hq => ?_⟩
  have hon : s.escalationOn := by
    by_cases hkept : queue = s.prioQueue
    · exact State.escalationOn_of_queued hs (hkept ▸ hq)
    · have hqueues := of_not_not fun h => hkept (hqueue.trans (if_neg h))
      exact (State.escalationOn_iff s).mpr ⟨hqueues.2.1, hqueues.2.2.1⟩
  refine (State.grantToken_free (s := { s with
      counters := s.counters.set c n, token := token, prioQueue := queue
      window := if s.token = .held c then none else s.window }) hfree).2 d r hq hon

/-! ### Ticks -/

/-- An OPEN context of mode TIME, which a tick counts (R124). -/
def State.timed (s : State) (c : CtxId) : Bool := (s.ctx c).state = .opened && (s.lifetimes.get c).mode = .time

/-- A context after a tick has counted it (R123, R124). -/
def State.ticked (s : State) (c : CtxId) : Context :=
  if s.timed c then { s.ctx c with lifetime := min 65535 ((s.ctx c).lifetime + 1) } else s.ctx c

/-- A tick brings the context's lifetime counter to its limit (R126). -/
def State.dueByTick (s : State) (c : CtxId) : Bool :=
  s.timed c && ((s.lifetimes.get c).limit != 0 && min 65535 ((s.ctx c).lifetime + 1) == (s.lifetimes.get c).limit.toNat)

theorem State.timed_iff (s : State) (c : CtxId) :
    s.timed c = true ↔ (s.ctx c).state = .opened ∧ (s.lifetimes.get c).mode = .time := by
  simp [State.timed]

theorem State.dueByTick_iff (s : State) (c : CtxId) : s.dueByTick c = true ↔
    (s.ctx c).state = .opened ∧ (s.lifetimes.get c).mode = .time ∧ (s.lifetimes.get c).limit ≠ 0 ∧
      min 65535 ((s.ctx c).lifetime + 1) = (s.lifetimes.get c).limit.toNat := by
  simp [State.dueByTick, State.timed_iff, and_assoc]

theorem State.timed_congr {s t : State} {c : CtxId} (hctx : t.ctx c = s.ctx c) (hlife : t.lifetimes = s.lifetimes) :
    t.timed c = s.timed c := by rw [State.timed, State.timed, hctx, hlife]

theorem State.ticked_congr {s t : State} {c : CtxId} (hctx : t.ctx c = s.ctx c) (hlife : t.lifetimes = s.lifetimes) :
    t.ticked c = s.ticked c := by rw [State.ticked, State.ticked, State.timed_congr hctx hlife, hctx]

theorem State.dueByTick_congr {s t : State} {c : CtxId} (hctx : t.ctx c = s.ctx c)
    (hlife : t.lifetimes = s.lifetimes) : t.dueByTick c = s.dueByTick c := by
  rw [State.dueByTick, State.dueByTick, State.timed_congr hctx hlife, hctx, hlife]

theorem State.tickCtx_eq (s : State) (c : CtxId) : s.tickCtx c = (s.setCtx c (s.ticked c), s.dueByTick c) := by
  unfold State.tickCtx State.ticked State.dueByTick
  cases h : s.timed c with
  | true =>
    rw [if_pos (by exact h), if_pos rfl, Bool.true_and]
    rfl
  | false =>
    rw [if_neg (by simpa [State.timed] using h), if_neg (by simp), Bool.false_and]
    simp [State.setCtx, State.ctx]

/-- The counting of a tick goes context by context. -/
theorem State.tickCtxs_spec (l : List CtxId) (s : State) (hl : l.Nodup) :
    (s.tickCtxs l).1 = { s with ctxs := (s.tickCtxs l).1.ctxs } ∧
    (∀ d, (s.tickCtxs l).1.ctx d = if d ∈ l then s.ticked d else s.ctx d) ∧
    (s.tickCtxs l).2 = l.filter s.dueByTick := by
  induction l generalizing s with
  | nil => exact ⟨rfl, fun d => rfl, rfl⟩
  | cons c rest ih =>
    obtain ⟨hc, hrest⟩ := List.nodup_cons.mp hl
    have hcons : s.tickCtxs (c :: rest) = (((s.setCtx c (s.ticked c)).tickCtxs rest).1,
        if s.dueByTick c then c :: ((s.setCtx c (s.ticked c)).tickCtxs rest).2
        else ((s.setCtx c (s.ticked c)).tickCtxs rest).2) := by
      rw [State.tickCtxs, State.tickCtx_eq]
    obtain ⟨honly, hctx, hdue⟩ := ih (s.setCtx c (s.ticked c)) hrest
    have hother : ∀ d ∈ rest, (s.setCtx c (s.ticked c)).ctx d = s.ctx d := fun d hd => by
      simp [(ne_of_mem_of_not_mem hd hc)]
    rw [hcons]
    refine ⟨honly, fun d => ?_, ?_⟩
    · rw [hctx]
      by_cases hd : d ∈ rest
      · rw [if_pos hd, if_pos (List.mem_cons_of_mem _ hd), State.ticked_congr (hother d hd) rfl]
      · rcases eq_or_ne d c with rfl | hdc
        · simp [hd]
        · simp [hd, hdc]
    · have hsame : rest.filter (s.setCtx c (s.ticked c)).dueByTick = rest.filter s.dueByTick :=
        List.filter_congr fun d hd => State.dueByTick_congr (hother d hd) rfl
      rw [List.filter_cons, hdue, hsame]

/-- The state after the counting of a tick (R124). -/
theorem State.tickCtxs_four {s t : State} (ht : t = { s with ctxs := t.ctxs }) (hctx : ∀ c, t.ctx c = s.ticked c) :
    s.tickCtxs four = (t, four.filter s.dueByTick) := by
  obtain ⟨honly, hctxs, hdue⟩ := State.tickCtxs_spec four s (by decide)
  refine Prod.ext ?_ hdue
  have hsame : (s.tickCtxs four).1.ctxs = t.ctxs := Four.ext_get fun c => by
    have hc : c ∈ four := by revert c; decide
    have := hctxs c
    rw [if_pos hc, ← hctx c] at this
    exact this
  rw [honly, hsame, ← ht]

/-- A tick: the counting, then the expiries and the window timer's tick in some order (R118, R126, R137). -/
theorem State.takeTick_order {s t : State} (ht : t = { s with ctxs := t.ctxs }) (hctx : ∀ c, t.ctx c = s.ticked c) :
    ∃ (items : List TickItem) (n : Nat),
      items.Perm ((four.filter s.dueByTick).map TickItem.expiry ++ [.window]) ∧
      s.takeTick = items.foldl State.takeItem { t with freeCount := n } := by
  generalize hexp : (four.filter s.dueByTick).map TickItem.expiry ++ [.window] = expired
  refine ⟨freeOrder expired.length t.freeCount expired, t.freeCount + (expired.length - 1), freeOrder_perm _ _ _, ?_⟩
  rw [State.takeTick, State.tickCtxs_four ht hctx, ← hexp]
  rfl

/-- A tick at which no context expires (R118, R137). -/
theorem State.takeTick_of_none_due {s t : State} (ht : t = { s with ctxs := t.ctxs })
    (hctx : ∀ c, t.ctx c = s.ticked c) (hdue : ∀ c, s.dueByTick c = false) : s.takeTick = t.windowTick := by
  have hnone : four.filter s.dueByTick = [] := by simp [hdue]
  rw [State.takeTick, State.tickCtxs_four ht hctx, hnone]
  rfl

theorem exec_tick_pinHigh {s : State} (h : s.rst = false) : exec (.tick .pinHigh) s = .next s.pinHigh.settle := by
  change Host.Outcome.next _ = _
  rw [h]
  rfl

theorem State.divisorTick_of_source {s : State} (h : s.tickSource ≠ 7) :
    s.divisorTick = ({ s with divisor := 0 } : State).takeTick := if_neg h

theorem State.pinHigh_of_rise {s : State} (h : s.tickSource = 7) (hlevel : s.tickLevel = false) :
    s.pinHigh = ({ s with tickLevel := true } : State).takeTick := by
  simp [State.pinHigh, h, hlevel]

theorem State.pinHigh_of_no_rise {s : State} (h : s.tickSource ≠ 7 ∨ s.tickLevel = true) :
    s.pinHigh = { s with tickLevel := true } := by
  unfold State.pinHigh
  rw [if_neg (by simp; tauto)]

theorem State.settle_windowTick {s u : State} (hs : s.settled) (hb : u.bus = s.bus) (hr : u.reqs = s.reqs)
    (hp : u.pointer = s.pointer) (hj : u.jobs = s.jobs) (hports : u.ports = s.ports) :
    u.windowTick.settle = u.windowTick :=
  State.settle_of_quiet hs (by simp [hb]) (by simp [hr]) (by simp [hp]) (by simp [hj])
    fun q => by rw [State.port_congr (s := s) (by simp [hports])]

/-- Settles O40: what is no tick, a tick without expiry, and a tick with expiries in their free order. -/
theorem tickCountsTime : Obligations.TickCountsTime := by
  have hticked : ∀ (s t : State), (∀ c, t.ctx c = if (s.ctx c).state = .opened ∧ (s.lifetimes.get c).mode = .time then
      { s.ctx c with lifetime := min 65535 ((s.ctx c).lifetime + 1) } else s.ctx c) →
      ∀ c, t.ctx c = s.ticked c := fun s t h c => by
    rw [h c, State.ticked]
    exact (if_congr (s.timed_iff c) rfl rfl).symm
  refine ⟨fun s => ⟨fun hrst => ?reset, fun hrst => ?fall, fun hrst hs hlevel => ?still,
    fun t hrst hs ht hctx hdue => ?none⟩, fun s t due hrst ht hctx hdue => ?some⟩
  case reset => exact ⟨congrArg Host.Outcome.next (if_pos hrst), congrArg Host.Outcome.next (if_pos hrst),
    congrArg Host.Outcome.next (if_pos hrst)⟩
  case fall => exact congrArg Host.Outcome.next (if_neg (by simp [hrst]))
  case still =>
    rw [exec_tick_pinHigh hrst, State.pinHigh_of_no_rise hlevel]
    exact congrArg Host.Outcome.next (State.settle_of_quiet hs rfl rfl rfl rfl fun _ => rfl)
  case none =>
    have hnone : ∀ c, s.dueByTick c = false := fun c => by
      rw [Bool.eq_false_iff, ne_eq, State.dueByTick_iff]
      rintro ⟨hopen, hmode, hlimit, hlife⟩
      exact hdue c hopen hmode hlimit hlife
    have hcount := hticked s t hctx
    generalize t.ctxs = ctxs at ht
    subst ht
    refine ⟨fun h7 => ?_, fun h7 hlevel => ?_⟩
    · rw [exec_tick_divisor hrst, State.divisorTick_of_source h7, State.takeTick_of_none_due
        (s := { s with divisor := 0 }) (t := { s with ctxs := ctxs, divisor := 0 }) rfl hcount hnone]
      exact congrArg Host.Outcome.next (State.settle_windowTick hs rfl rfl rfl rfl rfl)
    · rw [exec_tick_pinHigh hrst, State.pinHigh_of_rise h7 hlevel, State.takeTick_of_none_due
        (s := { s with tickLevel := true }) (t := { s with ctxs := ctxs, tickLevel := true }) rfl hcount hnone]
      exact congrArg Host.Outcome.next (State.settle_windowTick hs rfl rfl rfl rfl rfl)
  case some =>
    have hcount := hticked s t hctx
    have hlist : due = four.filter s.dueByTick := hdue.trans (List.filter_congr fun c _ => by
      rw [Bool.eq_iff_iff, State.dueByTick_iff, decide_eq_true_iff])
    have hitem : (fun (u : State) (i : TickItem) => match i with
        | .expiry c => u.abort c .timeout
        | .window => u.windowTick) = State.takeItem := by
      funext u i
      cases i <;> rfl
    generalize t.ctxs = ctxs at ht
    subst ht hlist
    refine ⟨fun h7 => ?_, fun h7 hlevel => ?_⟩
    · obtain ⟨items, n, hperm, heq⟩ := State.takeTick_order
        (s := { s with divisor := 0 }) (t := { s with ctxs := ctxs, divisor := 0 }) rfl hcount
      refine ⟨items, n, hperm, ?_⟩
      rw [exec_tick_divisor hrst, State.divisorTick_of_source h7, heq]
      exact congrArg (fun f => Host.Outcome.next (State.settle (items.foldl f _))) hitem.symm
    · obtain ⟨items, n, hperm, heq⟩ := State.takeTick_order
        (s := { s with tickLevel := true }) (t := { s with ctxs := ctxs, tickLevel := true }) rfl hcount
      refine ⟨items, n, hperm, ?_⟩
      rw [exec_tick_pinHigh hrst, State.pinHigh_of_rise h7 hlevel, heq]
      exact congrArg (fun f => Host.Outcome.next (State.settle (items.foldl f _))) hitem.symm

end Sys2Proof.Machine
end

section
/-! The answers of the external memory, beat by beat (R162, R163, R169, R170), and the ends of its bursts. -/

namespace Sys2Proof.Machine

/-! ### The Engine after a burst -/

/-- The Engine starts a queue whose head waits (R73). -/
theorem State.kick_of_waiting {s : State} (h : s.jobs.head?.all fun j => j.phase == .waiting) :
    s.kick = s.engineRun s.jobs := by
  unfold State.kick
  split
  · next hj =>
    rw [hj]
    exact (show s.setJobs [] = s by cases s; simp_all [State.setJobs]).symm
  · next j rest hj =>
    rw [if_pos (by simpa [hj] using h), hj]

theorem State.settle_engineRun (s : State) (l : List Job) : (s.engineRun l).settle = (s.engineRun l).arbitrate := by
  rw [State.settle, State.kick_of_started (State.engineRun_started l s).1]

/-- A queue handed to the Engine settles as when it stood in the state (R73, R79). -/
theorem State.settle_engineRun_of_waiting {s : State} (h : s.jobs.head?.all fun j => j.phase == .waiting) :
    (s.engineRun s.jobs).settle = s.settle := by
  rw [State.settle_engineRun, ← State.kick_of_waiting h, State.settle]

/-- A BUSY bus leaves a settled state settled. -/
theorem State.settle_setBus {s : State} (h : s.settled) (b : BusBurst) :
    (s.setBus (some b)).settle = s.setBus (some b) := by
  refine State.settle_of_settled ?_
  simp only [State.settled, Bool.and_eq_true] at h ⊢
  exact ⟨rfl, h.2⟩

/-! ### One beat -/

theorem exec_memoryBeatAnswer (s : State) (x : Bool) (d : Word) (par : Lanes) :
    exec (.memoryBeatAnswer x d par) s = .next (s.takeBeat x d par).settle := rfl

section
variable {s : State} {b : BusBurst} (hbus : s.bus = some b) (x : Bool) (d : Word) (par : Lanes)
include hbus

/-- A beat that is not the last (R163). -/
theorem State.takeBeat_of_more (hmore : b.answered + 1 < b.burst.beats.length) : s.takeBeat x d par =
    (s.beatToOwner b (beatError b x d par) d).setBus
      (some { b with answered := b.answered + 1, bad := b.bad || beatError b x d par }) := by
  unfold State.takeBeat
  rw [hbus]
  exact if_pos hmore

/-- The last beat (R162, R163). -/
theorem State.takeBeat_of_last (hlast : b.burst.beats.length ≤ b.answered + 1) : s.takeBeat x d par =
    (s.beatToOwner b (beatError b x d par) d).burstDone
      { b with answered := b.answered + 1, bad := b.bad || beatError b x d par } := by
  unfold State.takeBeat
  rw [hbus]
  exact if_neg hlast.not_gt

/-- A beat that is not the last, of a burst whose owner waits for its completion, is only counted (R170). -/
theorem exec_beat_of_counted (hmore : b.answered + 1 < b.burst.beats.length) (hs : s.settled)
    (howner : ∀ bad, s.beatToOwner b bad d = s) : exec (.memoryBeatAnswer x d par) s =
      .next (s.setBus (some { b with answered := b.answered + 1, bad := b.bad || beatError b x d par })) := by
  rw [exec_memoryBeatAnswer, State.takeBeat_of_more hbus x d par hmore, howner, State.settle_setBus hs]

end

theorem beatError_of_write {b : BusBurst} (h : b.burst.write = true) (x : Bool) (d : Word) (par : Lanes) :
    beatError b x d par = x := by
  simp [beatError, h]

theorem beatError_of_read {b : BusBurst} {beat : BurstBeat} (h : b.burst.write = false)
    (hbeat : b.burst.beats[b.answered]? = some beat) (x : Bool) (d : Word) (par : Lanes) :
    beatError b x d par = (x || !beatGood beat.en d par) := by
  simp [beatError, h, hbeat]

theorem State.beatToOwner_of_engine {s : State} {b : BusBurst} (h : b.owner = .engine) (bad : Bool) (d : Word) :
    s.beatToOwner b bad d = s := by
  rw [State.beatToOwner, h]

theorem State.beatToOwner_of_port {s : State} {b : BusBurst} {p : PortId} (h : b.owner = .port p) (bad : Bool)
    (d : Word) : s.beatToOwner b bad d =
      if b.orphan || b.burst.write then s else s.readBeatAnswered p b bad d := by
  rw [State.beatToOwner, h]

/-! ### A read of a port -/

theorem State.groupOpen_iff (s : State) (c : CtxId) (m : Nat) :
    s.groupOpen ⟨c, m⟩ = true ↔ (s.ctx c).state = .opened ∧ (s.ctx c).number = m := by
  simp [State.groupOpen]

section
variable {s : State} {p : PortId} {b : BusBurst} {a : Addr} {k : BitVec 3} {n : BitVec 2} {rs : List ReadBeat}
  {g : Option GroupRef} {r : ReadBeat} (hcycle : (s.port p).cycle = some ⟨k, a, n, .reading rs g⟩)
  (hr : rs[b.answered]? = some r) (d : Word)
include hcycle hr

theorem State.readBeatAnswered_eq (bad : Bool) : s.readBeatAnswered p b bad d =
    if bad && !b.bad then (s.respond p [r.answer bad (!b.bad && !bad) d]).reportReadError p g (beatAddr a b.answered)
    else s.respond p [r.answer bad (!b.bad && !bad) d] := by
  unfold State.readBeatAnswered
  rw [hcycle]
  simp only [hr, Option.getD_some]

theorem State.readBeatAnswered_good (hfailed : r.failed = false) : s.readBeatAnswered p b false d =
    s.respond p [.word (laneWord fun n => if r.en.getLsbD n then
      if r.staged.getLsbD n && !b.bad then laneByte r.data n else laneByte d n else 0)] := by
  rw [State.readBeatAnswered_eq hcycle hr]
  simp [ReadBeat.answer, ReadBeat.merge, hfailed]

theorem State.readBeatAnswered_failed (hfailed : r.failed = true) : s.readBeatAnswered p b false d =
    s.respond p [.readError] := by
  rw [State.readBeatAnswered_eq hcycle hr]
  simp [ReadBeat.answer, hfailed]

theorem State.readBeatAnswered_again (hbad : b.bad = true) : s.readBeatAnswered p b true d =
    s.respond p [.readError] := by
  rw [State.readBeatAnswered_eq hcycle hr]
  simp [ReadBeat.answer, hbad]

theorem State.readBeatAnswered_first (hbad : b.bad = false) : s.readBeatAnswered p b true d =
    (s.respond p [.readError]).reportReadError p g (beatAddr a b.answered) := by
  rw [State.readBeatAnswered_eq hcycle hr]
  simp [ReadBeat.answer, hbad]

end

/-- The first bad beat outside an OPEN group (R64, R169). -/
theorem State.reportReadError_of_not_open {s : State} {g : Option GroupRef}
    (h : ∀ c m, g = some ⟨c, m⟩ → (s.ctx c).state ≠ .opened ∨ (s.ctx c).number ≠ m) (p : PortId) (a : Addr) :
    s.reportReadError p g a = s.setFlag p .memerr := by
  cases g with
  | none => rfl
  | some g =>
    have hnot : ¬ s.groupOpen ⟨g.ctx, g.number⟩ := by
      rw [State.groupOpen_iff]
      have := h g.ctx g.number rfl
      tauto
    exact if_neg hnot

/-- The first bad beat of an OPEN group's read (R42, R169). -/
theorem State.reportReadError_of_open {s : State} {c : CtxId} {m : Nat} (hopen : (s.ctx c).state = .opened)
    (hm : (s.ctx c).number = m) (p : PortId) (a : Addr) :
    s.reportReadError p (some ⟨c, m⟩) a = s.takeAbort c .memerr (some a) none := by
  have hgroup : s.groupOpen ⟨c, m⟩ := (s.groupOpen_iff c m).mpr ⟨hopen, hm⟩
  refine (if_pos hgroup).trans ?_
  exact State.abort_open hopen _ _ _

/-- Settles O46, by what the beat and the copied bytes are; then by whether a beat follows. -/
theorem readBeatIsAnswered : Obligations.ReadBeatIsAnswered := by
  intro s u p b a k n rs g r beat x bad d par hbus howner horphan hwrite hcycle hr hbeat hbad hu
  have herror : beatError b x d par = bad := (beatError_of_read hwrite hbeat x d par).trans hbad.symm
  have hgiven : s.beatToOwner b bad d = u := by
    rw [State.beatToOwner_of_port howner, if_neg (by simp [horphan, hwrite])]
    rcases hu with ⟨rfl, hfailed, rfl⟩ | ⟨rfl, hfailed, rfl⟩ | ⟨rfl, hagain, rfl⟩ | ⟨rfl, hfirst, hnot, rfl⟩ |
      ⟨rfl, hfirst, c, m, rfl, hopen, hm, rfl⟩
    · exact State.readBeatAnswered_good hcycle hr d hfailed
    · exact State.readBeatAnswered_failed hcycle hr d hfailed
    · exact State.readBeatAnswered_again hcycle hr d hagain
    · rw [State.readBeatAnswered_first hcycle hr d hfirst]
      exact State.reportReadError_of_not_open (s := s.respond p _) hnot p _
    · rw [State.readBeatAnswered_first hcycle hr d hfirst]
      exact State.reportReadError_of_open (s := s.respond p _) hopen hm p _
  refine ⟨fun hmore => ?_, fun hlast => ?_⟩
  · rw [exec_memoryBeatAnswer, State.takeBeat_of_more hbus x d par hmore, herror, hgiven]
  · rw [exec_memoryBeatAnswer, State.takeBeat_of_last hbus x d par hlast, herror, hgiven]
    unfold State.burstDone State.portBurstDone State.landed
    simp only [howner, horphan, hwrite, Bool.false_and, Bool.false_eq_true, if_false]

/-! ### A write of a port, and a burst without a master -/

/-- A port's burst is in flight no more when it was a write that ends no pair (R34, R170). -/
theorem State.landed_eq (s : State) (p : PortId) (b : BusBurst) : s.landed p b =
    if b.burst.write = true ∧ b.closing = false then s.setInFlight (s.inFlight.erase (p, lineOf b.burst.addr)) else s := by
  unfold State.landed
  exact if_congr (by simp) rfl rfl

theorem State.burstDone_of_port {s : State} {p : PortId} {b : BusBurst} (h : b.owner = .port p) :
    s.burstDone b = (s.setBus none).portBurstDone p b := by
  rw [State.burstDone, h]

theorem State.portBurstDone_of_orphan {s : State} {p : PortId} {b : BusBurst} (h : b.orphan = true) :
    s.portBurstDone p b = s.landed p b := by
  simp [State.portBurstDone, h]

theorem State.portBurstDone_of_write {s : State} {p : PortId} {b : BusBurst} (h : b.orphan = false)
    (hw : b.burst.write = true) :
    s.portBurstDone p b = ((s.landed p b).writeAnswered p b.bad).setCycle p none := by
  simp [State.portBurstDone, h, hw]

/-- Settles O47, by whether a master waits and whether a beat follows. -/
theorem writeBurstOfAPortCompletes : Obligations.WriteBurstOfAPortCompletes := by
  intro s x d par
  refine ⟨fun hbus hs => ?_, fun p b u hbus howner hu => ⟨fun horphan hwrite => ?_, fun horphan => ?_⟩⟩
  · have hnone : s.takeBeat x d par = s := by rw [State.takeBeat, hbus]
    rw [exec_memoryBeatAnswer, hnone, State.settle_of_settled hs]
  all_goals
    have hstill : ∀ bad, s.beatToOwner b bad d = s := fun bad => by
      rw [State.beatToOwner_of_port howner, if_pos (by simp [*])]
    have hlanded : ∀ n bad, (s.setBus none).landed p { b with answered := n, bad := bad } = u := fun n bad =>
      (State.landed_eq ..).trans hu.symm
  · have herror := beatError_of_write hwrite x d par
    refine ⟨fun hmore hs => ?_, fun hlast => ?_⟩
    · rw [exec_beat_of_counted hbus x d par hmore hs hstill, herror]
    · rw [exec_memoryBeatAnswer, State.takeBeat_of_last hbus x d par hlast, hstill, herror]
      rw [State.burstDone_of_port (p := p), State.portBurstDone_of_write, hlanded]
      · rfl
      · exact horphan
      · exact hwrite
      · exact howner
  · refine ⟨fun hmore hs => ⟨_, exec_beat_of_counted hbus x d par hmore hs hstill⟩, fun hlast => ?_⟩
    rw [exec_memoryBeatAnswer, State.takeBeat_of_last hbus x d par hlast, hstill]
    rw [State.burstDone_of_port (p := p), State.portBurstDone_of_orphan, hlanded]
    · exact horphan
    · exact howner

/-! ### A burst of the Engine -/

/-- Settles O48: a beat that is not the last is counted, and the last hands the rest of the queue to the Engine. -/
theorem engineBurstCompletes : Obligations.EngineBurstCompletes := by
  intro s x bad d par b c rest hbus howner hwrite hbad
  have hstill : ∀ bad, s.beatToOwner b bad d = s := fun bad => State.beatToOwner_of_engine howner bad d
  have herror := beatError_of_write hwrite x d par
  refine ⟨fun hmore hs => ?_, fun hlast => ?_⟩
  · rw [exec_beat_of_counted hbus x d par hmore hs hstill, herror, hbad]
  · have hdone : exec (.memoryBeatAnswer x d par) s = .next ((s.setBus none).engineBurstDone bad).settle := by
      rw [exec_memoryBeatAnswer, State.takeBeat_of_last hbus x d par hlast, hstill, herror, ← hbad, State.burstDone]
      simp only [howner]
    rw [hdone]
    refine ⟨fun n f i hjobs => ?_, fun a m hjobs htail => ?_⟩
    · have hturn : (s.setBus none).engineBurstDone bad = (s.setBus none).engineRun
          (⟨c, .commit (n - 1) (if bad then f + 1 else f) (i + 1), .waiting⟩ :: rest) := by
        unfold State.engineBurstDone
        have hjobs' : (s.setBus none).jobs = ⟨c, .commit n f i, .writing⟩ :: rest := hjobs
        rw [hjobs']
        cases bad <;> rfl
      rw [hturn]
      rw [← State.settle_engineRun_of_waiting (s := (s.setBus none).setJobs _) rfl, State.engineRun_setJobs]
      rfl
    · have hwait : (((s.setBus none).setJobs rest).recordFinish c bad bad).jobs.head?.all
          fun j => j.phase == .waiting := by
        cases rest <;> simp_all [State.tailWaits]
      rw [← State.settle_engineRun_of_waiting hwait]
      unfold State.engineBurstDone
      have hjobs' : (s.setBus none).jobs = ⟨c, .record a m, .writing⟩ :: rest := hjobs
      rw [hjobs']
      simp

end Sys2Proof.Machine
end

section
/-! Grants and the starts of jobs (R73, R75, R79, R100, R101, R165, R166, R167). -/

namespace Sys2Proof.Machine

/-! ### The winner of a grant decision -/

theorem searchOrder_eq (r : Requester) : searchOrder r =
    [.port 0, .port 1, .port 2, .port 3, .engine].rotate
      (List.idxOf r [.port 0, .port 1, .port 2, .port 3, .engine] + 1) := by
  cases r with
  | port p => fin_cases p <;> rfl
  | engine => rfl

theorem mem_searchOrder (r x : Requester) : x ∈ searchOrder r := by
  rw [searchOrder_eq, List.mem_rotate]
  cases x with
  | port p => fin_cases p <;> simp
  | engine => simp

theorem State.standsClosing_iff (s : State) (r : Requester) : s.standsClosing r = true ↔
    ∃ p q, r = .port p ∧ s.reqs.get p = some q ∧ q.closing = true := by
  cases r <;> simp [State.standsClosing, Option.any_eq_true]

theorem State.reserved_eq_false_iff (s : State) : s.reserved = false ↔ ∀ o, (s.port o).pair = none := by
  have : ∀ q : PortId, q ∈ four := by decide
  simp [State.reserved, this]

theorem State.engineReq_isSome_iff (s : State) :
    s.engineReq.isSome ↔ ∃ c w b rest, s.jobs = ⟨c, w, .requesting b⟩ :: rest := by
  unfold State.engineReq
  split
  · next c w b rest hjobs => simp [hjobs]
  · next h => exact ⟨fun h' => absurd h' (by simp), fun ⟨c, w, b, rest, hjobs⟩ => absurd hjobs (h c w b rest)⟩

theorem State.eligible_iff (s : State) (r : Requester) : s.eligible r = true ↔
    (∃ p q, r = .port p ∧ s.reqs.get p = some q ∧ ((∀ o, (s.port o).pair = none) ∨ (s.port p).pair ≠ none)) ∨
    (∃ c w b rest, r = .engine ∧ s.jobs = ⟨c, w, .requesting b⟩ :: rest ∧ ∀ o, (s.port o).pair = none) := by
  cases r with
  | port p =>
    simp [State.eligible, State.stands, State.reserved_eq_false_iff, Option.isSome_iff_exists,
      Option.ne_none_iff_exists']
  | engine =>
    simp only [State.eligible, State.stands, Bool.and_eq_true, Bool.not_eq_true', State.reserved_eq_false_iff,
      State.engineReq_isSome_iff]
    simp [← exists_and_right]

/-- The search finds the first requester that meets the condition. -/
theorem find?_searchOrder (f : Requester → Bool) (start r : Requester) : (searchOrder start).find? f = some r ↔
    ∃ l₁ l₂, searchOrder start = l₁ ++ r :: l₂ ∧ f r = true ∧ ∀ x ∈ l₁, ¬ f x = true := by
  rw [List.find?_eq_some_iff_append]
  simp only [Bool.not_eq_true', Bool.not_eq_true]
  exact ⟨fun ⟨h, l₁, l₂, hl, hx⟩ => ⟨l₁, l₂, hl, h, hx⟩, fun ⟨l₁, l₂, hl, h, hx⟩ => ⟨h, l₁, l₂, hl, hx⟩⟩

/-- The first closing request of the search, else the first eligible one (R165, R167). -/
theorem State.winner_eq_some_iff (s : State) (r : Requester) : s.winner = some r ↔
    ∃ l₁ l₂, searchOrder s.pointer = l₁ ++ r :: l₂ ∧
      (s.standsClosing r = true ∧ (∀ x ∈ l₁, ¬ s.standsClosing x = true) ∨
        (∀ x, ¬ s.standsClosing x = true) ∧ s.eligible r = true ∧ ∀ x ∈ l₁, ¬ s.eligible x = true) := by
  have hnone : (searchOrder s.pointer).find? s.standsClosing = none ↔ ∀ x, ¬ s.standsClosing x = true := by
    simp [List.find?_eq_none, mem_searchOrder]
  rw [State.winner, Option.or_eq_some_iff, hnone, find?_searchOrder, find?_searchOrder]
  constructor
  · rintro (⟨l₁, l₂, hl, hr, hx⟩ | ⟨hno, l₁, l₂, hl, hr, hx⟩)
    · exact ⟨l₁, l₂, hl, .inl ⟨hr, hx⟩⟩
    · exact ⟨l₁, l₂, hl, .inr ⟨hno, hr, hx⟩⟩
  · rintro ⟨l₁, l₂, hl, ⟨hr, hx⟩ | ⟨hno, hr, hx⟩⟩
    · exact .inl ⟨l₁, l₂, hl, hr, hx⟩
    · exact .inr ⟨hno, l₁, l₂, hl, hr, hx⟩

/-! ### Grants -/

theorem exec_grant (s : State) : exec .grant s = .next s.arbitrate := rfl

theorem exec_jobStart (s : State) : exec .jobStart s = .next s.settle := rfl

section
variable {s t : State} {r : Requester} (hb : s.bus = none) (hw : s.winner = some r)
include hb hw

theorem State.grants_of_out (ht : s.grantTo r = .out t) (n : Nat) : s.grants (n + 1) = t := by
  simp [State.grants, hb, hw, ht]

theorem State.grants_of_gaveUp (ht : s.grantTo r = .gaveUp t) (n : Nat) : s.grants (n + 1) = t.grants n := by
  simp [State.grants, hb, hw, ht]

end

theorem State.grants_of_closed {s : State} (h : s.bus.isSome ∨ s.winner = none) (n : Nat) : s.grants n = s := by
  unfold State.grants
  split
  · rfl
  · split
    · rfl
    · next hb =>
      have hw : s.winner = none := h.resolve_left hb
      rw [hw]

/-- More grant decisions than grants that can be given up change nothing (R165). -/
theorem State.grants_congr {m n : Nat} {s : State} (hm : s.jobs.length < m) (hn : s.jobs.length < n)
    (hh : s.jobs.head?.all fun j => j.phase != .waiting) : s.grants m = s.grants n := by
  induction m generalizing s n with
  | zero => omega
  | succ m ih =>
    obtain ⟨n, rfl⟩ : ∃ k, n = k + 1 := ⟨n - 1, by omega⟩
    by_cases hclosed : s.bus.isSome ∨ s.winner = none
    · rw [State.grants_of_closed hclosed, State.grants_of_closed hclosed]
    · obtain ⟨hbusy, hsome⟩ := not_or.mp hclosed
      have hb : s.bus = none := by simpa using hbusy
      obtain ⟨r, hw⟩ := Option.ne_none_iff_exists'.mp hsome
      have hresult := State.grantTo_result (State.winner_stands hw) hh
      cases ht : s.grantTo r with
      | out t => rw [State.grants_of_out hb hw ht, State.grants_of_out hb hw ht]
      | gaveUp t =>
        rw [ht] at hresult
        obtain ⟨hless, hstarted⟩ := hresult
        rw [State.grants_of_gaveUp hb hw ht, State.grants_of_gaveUp hb hw ht]
        exact ih (by omega) (by omega) hstarted

section
variable {s t : State} {r : Requester} (hb : s.bus = none) (hw : s.winner = some r)
include hb hw

theorem State.arbitrate_of_out (ht : s.grantTo r = .out t) : s.arbitrate = t := State.grants_of_out hb hw ht _

/-- A grant given up is followed by the next decision (R165). -/
theorem State.arbitrate_of_gaveUp (ht : s.grantTo r = .gaveUp t) (hless : t.jobs.length < s.jobs.length)
    (hh : t.jobs.head?.all fun j => j.phase != .waiting) : s.arbitrate = t.arbitrate :=
  (State.grants_of_gaveUp hb hw ht _).trans (State.grants_congr hless (Nat.lt_succ_self _) hh)

end

/-- Settles O43: the search by its first match, then the grant to each requester. -/
theorem grantDecisionAndItsGrants : Obligations.GrantDecisionAndItsGrants := by
  refine ⟨⟨?search, fun s => ⟨fun hclosed => ?_, fun p q hb hw hq => ?_, fun c n f i b rest hb hw hjobs => ?_⟩⟩,
    fun s c a m b rest hb hw hjobs => ⟨fun hlocked => ?_, fun hfree => ?_⟩⟩
  case search =>
    rintro s l order rfl rfl closing eligible hclosing heligible r
    rw [State.winner_eq_some_iff, searchOrder_eq]
    simp only [State.standsClosing_iff, State.eligible_iff, ← hclosing, ← heligible]
  · rw [exec_grant, State.arbitrate, State.grants_of_closed (by simpa [Option.isSome_iff_ne_none] using hclosed)]
  · have ht : s.grantTo (.port p) = .out (((s.setReq p none).setPointer (.port p)).setBus
        (some ⟨.port p, q.burst, q.closing, 0, false, false⟩)) := by
      rw [State.grantTo, hq]
      rfl
    rw [exec_grant, State.arbitrate_of_out hb hw ht]
  · have ht : s.grantTo .engine = .out (((s.setPointer .engine).setJobs (⟨c, .commit n f i, .writing⟩ :: rest)).setBus
        (some ⟨.engine, b, false, 0, false, false⟩)) := by
      rw [State.grantTo, hjobs]
      rfl
    rw [exec_grant, State.arbitrate_of_out hb hw ht]
  · have ht : s.grantTo .engine =
        .gaveUp ((((s.setPointer .engine).setJobs rest).recordFinish c true false).engineRun rest) := by
      rw [State.grantTo, hjobs]
      exact if_pos hlocked
    obtain ⟨hstarted, hlength⟩ := State.engineRun_started rest
      (((s.setPointer .engine).setJobs rest).recordFinish c true false)
    rw [exec_grant, State.arbitrate_of_gaveUp hb hw ht (by simp [hjobs]; omega) hstarted]
  · have ht : s.grantTo .engine = .out ((((s.setPointer .engine).setJobs (⟨c, .record a m, .writing⟩ :: rest)).setBus
        (some ⟨.engine, b, false, 0, false, false⟩)).abortAll (s.holders (lineOf a)) .invaded (some a)
          (some (.ctx c))) := by
      rw [State.grantTo, hjobs]
      exact if_neg (by simp [hfree])
    rw [exec_grant, State.arbitrate_of_out hb hw ht]

/-! ### The starts of jobs -/

/-- No written byte of the slot disagrees with its parity bit (R54). -/
theorem SlotBody.good_iff (b : SlotBody) :
    b.good = true ↔ ∀ (o : Nat) (x : StoredByte), b.byteAt o = some x → byteParity x.val = x.par := by
  simp only [SlotBody.good, List.all_eq_true, Vector.mem_toList_iff, Option.all_eq_true, beq_iff_eq]
  constructor
  · intro h o x hx
    obtain ⟨ho, hget⟩ := Vector.getElem?_eq_some_iff.mp (Option.join_eq_some_iff.mp hx)
    exact h _ (Vector.getElem_mem ho) x hget
  · intro h e he x hx
    obtain ⟨o, ho, heq⟩ := Vector.mem_iff_getElem.mp he
    refine h o x ?_
    simp [SlotBody.byteAt, ho, heq, hx]

theorem State.readOut_of_good {s : State} {k : SlotId} {b : SlotBody} (hk : s.slots[k] = some b) (h : b.good = true) :
    s.readOut k = some b.commitBurst := by
  rw [State.readOut, hk]
  exact if_pos h

theorem State.readOut_of_bad {s : State} {k : SlotId} {b : SlotBody} (hk : s.slots[k] = some b) (h : b.good = false) :
    s.readOut k = none := by
  rw [State.readOut, hk]
  exact if_neg (by simp [h])

section
variable {s : State} {c : CtxId} {n f i : Nat} {ph : JobPhase} {rest : List Job}

/-- The turn of a slot whose read-out forms a burst (R75, R77). -/
theorem State.engineRun_request {k : SlotId} {b : Burst} (hk : (s.order c)[i]? = some k) (hread : s.readOut k = some b) :
    s.engineRun (⟨c, .commit n f i, ph⟩ :: rest) = s.setJobs (⟨c, .commit n f i, .requesting b⟩ :: rest) := by
  obtain ⟨hi, hget⟩ := List.getElem?_eq_some_iff.mp hk
  rw [State.engineRun]
  simp only [List.drop_eq_getElem_cons hi, hget, State.commitTurns, hread]

/-- The turn of a slot handed over as failed ends at once (R75, R79). -/
theorem State.engineRun_failed {k : SlotId} (hk : (s.order c)[i]? = some k) (hread : s.readOut k = none) :
    s.engineRun (⟨c, .commit n f i, ph⟩ :: rest) =
      s.engineRun (⟨c, .commit (n - 1) (f + 1) (i + 1), ph⟩ :: rest) := by
  obtain ⟨hi, hget⟩ := List.getElem?_eq_some_iff.mp hk
  rw [State.engineRun, State.engineRun]
  simp only [List.drop_eq_getElem_cons hi, hget, State.commitTurns, hread]

/-- After the last slot's turn the commit finishes (R79, R80). -/
theorem State.engineRun_finish (hi : (s.order c).length ≤ i) : s.engineRun (⟨c, .commit n f i, ph⟩ :: rest) =
    ((s.setJobs rest).commitFinish c f).engineRun rest := by
  rw [State.engineRun]
  simp only [List.drop_of_length_le hi, State.commitTurns]

theorem State.engineRun_record {a : Addr} {m : Image} (h : s.kindOf (lineOf a) ≠ .blocked) :
    s.engineRun (⟨c, .record a m, ph⟩ :: rest) =
      s.setJobs (⟨c, .record a m, .requesting (recordBurst a m)⟩ :: rest) := by
  rw [State.engineRun]
  simp only [if_neg h]

theorem State.engineRun_blocked {a : Addr} {m : Image} (h : s.kindOf (lineOf a) = .blocked) :
    s.engineRun (⟨c, .record a m, ph⟩ :: rest) = ((s.setJobs rest).recordFinish c true false).engineRun rest := by
  rw [State.engineRun]
  simp only [if_pos h]

end

/-- JOB_START with a waiting head (R73). -/
theorem exec_jobStart_of_waiting {s : State} {c : CtxId} {w : JobWork} {rest : List Job}
    (h : s.jobs = ⟨c, w, .waiting⟩ :: rest) :
    exec .jobStart s = .next (s.engineRun (⟨c, w, .waiting⟩ :: rest)).arbitrate := by
  rw [exec_jobStart, State.settle, State.kick_of_waiting (by simp [h]), h]

/-- Settles O44, by what the head of the queue does. -/
theorem waitingJobStarts : Obligations.WaitingJobStarts := by
  refine ⟨fun s c w rest => ⟨fun hstarted => ?_, fun hjobs => ⟨fun n f i k b hwork hk hb => ⟨fun hgood => ?_,
    fun hbad => ?_⟩, fun n f i hwork hi => ?_, fun a m hwork => ⟨fun hopen => ?_, fun hblocked => ?_⟩⟩⟩,
    fun s => ⟨rfl, rfl, fun hnil => ?_, fun j hj hwait => ?_⟩⟩
  · have hhead : s.jobs.head?.all fun j => j.phase != .waiting := by
      simpa [Option.all_eq_true] using hstarted
    rw [exec_jobStart, State.settle, State.kick_of_started hhead]
  · subst hwork
    rw [exec_jobStart_of_waiting hjobs, State.engineRun_request hk (State.readOut_of_good hb (b.good_iff.mpr hgood))]
  · subst hwork
    have hfailed : b.good = false := by
      rw [Bool.eq_false_iff, ne_eq, SlotBody.good_iff]
      obtain ⟨o, x, hx, hparity⟩ := hbad
      exact fun h => hparity (h o x hx)
    rw [exec_jobStart_of_waiting hjobs, State.engineRun_failed hk (State.readOut_of_bad hb hfailed),
      exec_jobStart_of_waiting (s := s.setJobs _) rfl, State.engineRun_setJobs]
  · subst hwork
    rw [exec_jobStart_of_waiting hjobs, State.engineRun_finish hi]
  · subst hwork
    rw [exec_jobStart_of_waiting hjobs, State.engineRun_record hopen]
    rfl
  · subst hwork
    rw [exec_jobStart_of_waiting hjobs, State.engineRun_blocked hblocked]
  · rw [hnil, State.engineRun]
    cases s
    simp_all [State.setJobs]
  · rw [exec_jobStart, State.settle, State.kick_of_waiting (by simp [hj, hwait])]

end Sys2Proof.Machine
end

section
/-! The words of an abort record (R89, R90, R93, 12.7), and the lines the part drives (R162, R163, R178, R184). -/

namespace Sys2Proof.Machine

/-! ### Fields of a word -/

theorem toNat_field {v n : Nat} (h : v * 2 ^ n < 2 ^ 32) : (field v n).toNat = v * 2 ^ n := by
  rw [field, BitVec.toNat_ofNat, Nat.mod_eq_of_lt h]

/-- A field above the bits that are used so far adds its value. -/
theorem toNat_or_field {x : Word} {u v n : Nat} (hx : x.toNat = u) (hu : u < 2 ^ n) (hv : v * 2 ^ n < 2 ^ 32) :
    (x ||| field v n).toNat = u + v * 2 ^ n := by
  rw [BitVec.toNat_or, toNat_field hv, hx, Nat.or_comm, Nat.mul_comm, ← Nat.two_pow_add_eq_or_of_lt hu, Nat.add_comm]

theorem bitField_eq_field (b : Bool) (n : Nat) : bitField b n = field b.toNat n := by
  cases b <;> simp [bitField, field]

theorem getLsbD_eq_of_toNat {x : Word} {k : Nat} {b : Bool} (h : x.toNat / 2 ^ k % 2 = b.toNat) : x.getLsbD k = b := by
  rw [BitVec.getLsbD, Nat.testBit_eq_decide_div_mod_eq, h]
  cases b <;> rfl

theorem toNat_extractLsb'_eq (x : Word) (k n : Nat) : (x.extractLsb' k n).toNat = x.toNat / 2 ^ k % 2 ^ n := by
  rw [BitVec.extractLsb'_toNat, Nat.shiftRight_eq_div_pow]

/-! ### The abort record -/

theorem AbortCode.cls_lt (code : AbortCode) : code.cls < 4 := by
  rcases code.cls_cases with h | h | h <;> omega

theorem Relation.num_lt (r : Relation) : r.num < 4 := by cases r <;> decide

/-- Word 0 of a record as a number (12.7). -/
theorem toNat_recordHead {m : Image} (hdepth : m.depth < 8) (hnotice : m.notice < 4) :
    (field 1 0 ||| field m.code.num.toNat 4 ||| field m.code.cls 12 ||| bitField m.code.transient 14 |||
      field m.depth 15 ||| field m.ctx.val 18 ||| bitField m.bounded 20 ||| field m.notice 21).toNat =
    1 + m.code.num.toNat * 2 ^ 4 + m.code.cls * 2 ^ 12 + m.code.transient.toNat * 2 ^ 14 + m.depth * 2 ^ 15 +
      m.ctx.val * 2 ^ 18 + m.bounded.toNat * 2 ^ 20 + m.notice * 2 ^ 21 := by
  have hnum := m.code.num.isLt
  have hcls := m.code.cls_lt
  have htransient := m.code.transient.toNat_le
  have hctx := m.ctx.isLt
  have hbounded := m.bounded.toNat_le
  rw [bitField_eq_field, bitField_eq_field]
  have hmark : (field 1 0).toNat = 1 := rfl
  have hcode := toNat_or_field (n := 4) (v := m.code.num.toNat) hmark (by omega) (by omega)
  have hclass := toNat_or_field (n := 12) (v := m.code.cls) hcode (by omega) (by omega)
  have hbit := toNat_or_field (n := 14) (v := m.code.transient.toNat) hclass (by omega) (by omega)
  have hlevels := toNat_or_field (n := 15) (v := m.depth) hbit (by omega) (by omega)
  have hcontext := toNat_or_field (n := 18) (v := m.ctx.val) hlevels (by omega) (by omega)
  have hlimit := toNat_or_field (n := 20) (v := m.bounded.toNat) hcontext (by omega) (by omega)
  exact toNat_or_field hlimit (by omega) (by omega)

/-- The fields of word 0 (12.7). -/
theorem recordHead_fields {m : Image} {w : Word} (hw : w.toNat =
      1 + m.code.num.toNat * 2 ^ 4 + m.code.cls * 2 ^ 12 + m.code.transient.toNat * 2 ^ 14 + m.depth * 2 ^ 15 +
        m.ctx.val * 2 ^ 18 + m.bounded.toNat * 2 ^ 20 + m.notice * 2 ^ 21) (hdepth : m.depth < 8)
    (hnotice : m.notice < 4) :
    w.extractLsb' 0 4 = 1 ∧ w.extractLsb' 4 8 = m.code.num ∧ (w.extractLsb' 12 2).toNat = m.code.cls ∧
    w.getLsbD 14 = m.code.transient ∧ (w.extractLsb' 15 3).toNat = m.depth ∧
    (w.extractLsb' 18 2).toNat = m.ctx.val ∧ w.getLsbD 20 = m.bounded ∧ (w.extractLsb' 21 2).toNat = m.notice ∧
    w.extractLsb' 23 9 = 0 := by
  have hnum := m.code.num.isLt
  have hcls := m.code.cls_lt
  have htransient := m.code.transient.toNat_le
  have hctx := m.ctx.isLt
  have hbounded := m.bounded.toNat_le
  refine ⟨BitVec.eq_of_toNat_eq ?_, BitVec.eq_of_toNat_eq ?_, ?_, getLsbD_eq_of_toNat ?_, ?_, ?_,
    getLsbD_eq_of_toNat ?_, ?_, BitVec.eq_of_toNat_eq ?_⟩
  case refine_1 => rw [toNat_extractLsb'_eq, hw, show (1 : BitVec 4).toNat = 1 from rfl]; omega
  case refine_9 => rw [toNat_extractLsb'_eq, hw, show (0 : BitVec 9).toNat = 0 from rfl]; omega
  all_goals
    simp only [toNat_extractLsb'_eq, hw]
    omega

/-- Word 1 of a record: the cause and its valid bit (12.7). -/
theorem causeWord_fields (cause : Option Addr) :
    let w := cause.elim 0 fun a => field a.toNat 0 ||| bitField true 31
    w.extractLsb' 0 28 = cause.getD 0 ∧ w.extractLsb' 28 3 = 0 ∧ w.getLsbD 31 = cause.isSome := by
  cases cause with
  | none => decide
  | some a =>
    have ha := a.isLt
    have hw := toNat_or_field (n := 31) (v := 1) (toNat_field (v := a.toNat) (n := 0) (by omega)) (by omega) (by omega)
    rw [show field 1 31 = bitField true 31 from rfl] at hw
    simp only [Option.elim_some]
    generalize field a.toNat 0 ||| bitField true 31 = w at hw
    refine ⟨BitVec.eq_of_toNat_eq ?_, BitVec.eq_of_toNat_eq ?_, getLsbD_eq_of_toNat ?_⟩
    · rw [toNat_extractLsb'_eq, hw, Option.getD_some]
      omega
    · rw [toNat_extractLsb'_eq, hw, show (0 : BitVec 3).toNat = 0 from rfl]
      omega
    · rw [hw, Option.isSome_some, show true.toNat = 1 from rfl]
      omega

theorem toNat_partyWord_ctx (c : CtxId) : (partyWord (some (.ctx c))).toNat = 2 ^ 31 + c.val := by
  fin_cases c <;> decide

theorem toNat_partyWord_port (p : PortId) : (partyWord (some (.port p))).toNat = 2 ^ 31 + 2 ^ 30 + p.val := by
  fin_cases p <;> decide

/-- A word of one number, and a word of two. -/
theorem toNat_field_zero {v : Nat} (h : v < 2 ^ 32) : (field v 0).toNat = v := by
  rw [toNat_field (by omega)]
  omega

theorem toNat_fields_zero_eight {u v : Nat} (hu : u < 256) (hv : v < 2 ^ 24) :
    (field u 0 ||| field v 8).toNat = u + 256 * v := by
  rw [toNat_or_field (toNat_field_zero (by omega)) (by omega) (by omega)]
  omega

theorem AbortCode.transient_user_iff_even (b : Byte) : (AbortCode.user b).transient = true ↔ b.toNat % 2 = 0 := by
  simp only [AbortCode.transient, Bool.not_eq_true', BitVec.getLsbD, Nat.testBit_zero, decide_eq_false_iff_not]
  omega

/-- Settles O51, word by word. -/
theorem recordWordsHoldTheImage : Obligations.RecordWordsHoldTheImage := by
  refine ⟨fun m w hdepth hnotice hlife hslots hreads hcycles hcounter hwords => ?_, by decide,
    fun b => ⟨rfl, rfl, AbortCode.transient_user_iff_even b⟩⟩
  have hfin : List.finRange 8 = [0, 1, 2, 3, 4, 5, 6, 7] := by decide
  simp only [hfin, List.map_cons, List.map_nil, recordWords, List.cons.injEq, and_true] at hwords
  obtain ⟨h0, h1, h2, h3, h4, h5, h6, h7⟩ := hwords
  have hhead := toNat_recordHead hdepth hnotice
  rw [h0] at hhead
  obtain ⟨hmark, hcode, hclass, hbit, hlevels, hcontext, hlimit, hvalue, hrest⟩ := recordHead_fields hhead hdepth hnotice
  obtain ⟨hcause, hzero, hvalid⟩ := h1 ▸ causeWord_fields m.cause
  have hrelation := m.relation.num_lt
  have harg := m.outerArg.isLt
  refine ⟨hmark, hcode, hclass, hbit, hlevels, hcontext, hlimit, hvalue, hrest, hcause, hzero, hvalid,
    fun h => ?_, fun c h => ?_, fun p h => ?_, ?_, ?_, ?_, ?_, ?_⟩
  · rw [← h2, h]
    rfl
  · rw [← h2, h, toNat_partyWord_ctx]
  · rw [← h2, h, toNat_partyWord_port]
  · rw [← h3, toNat_field_zero (by omega)]
  · rw [← h4, toNat_fields_zero_eight (by omega) (by omega)]
  · rw [← h5, toNat_field_zero (by omega)]
  · rw [← h6, toNat_fields_zero_eight (by omega) (by omega)]
  · rw [← h7, toNat_field_zero (by omega)]

/-! ### The output lines -/

theorem State.busLines_of_busy {s : State} {b : BusBurst} {y : BurstBeat} (hbus : s.bus = some b)
    (hy : b.burst.beats[b.answered]? = some y) : s.busLines =
    some ⟨b.burst.addr, b.burst.write, lenCode b.burst.beats.length, y.en,
      if b.burst.write then some (maskLanes y.en y.data) else none,
      (if b.burst.write then some (maskLanes y.en y.data) else none).map wordParity⟩ := by
  rw [State.busLines, hbus]
  simp only [hy, Option.getD_some]

theorem two_pow_lenCode {n : Nat} (h : n ∈ [1, 2, 4, 8]) : 2 ^ (lenCode n).toNat = n := by
  revert h n
  decide

theorem laneByte_maskLanes (en : Lanes) (w : Word) {n : Nat} (hn : n < 4) :
    laneByte (maskLanes en w) n = if en.getLsbD n = true then laneByte w n else 0 := laneByte_laneWord _ hn

theorem getLsbD_wordParity (w : Word) {n : Nat} (hn : n < 4) :
    (wordParity w).getLsbD n = byteParity (laneByte w n) := getLsbD_laneBits _ hn

/-- Settles O52, line by line. -/
theorem outputLinesFollowTheState : Obligations.OutputLinesFollowTheState := by
  refine fun s => ⟨s.flt_iff, fun p => ?_, ?_, fun hbus => ?_, fun b y hbus hy hlen => ?_⟩
  · simp [State.abt, State.ctx]
  · simp [State.qack]
  · rw [State.busLines, hbus]
  · refine ⟨_, State.busLines_of_busy hbus hy, rfl, rfl, two_pow_lenCode hlen, rfl, fun hread => ?_, fun hwrite => ?_⟩
    · simp [hread]
    · exact ⟨maskLanes y.en y.data, wordParity (maskLanes y.en y.data), by simp [hwrite], by simp [hwrite],
        fun n hn => ⟨laneByte_maskLanes _ _ hn, getLsbD_wordParity _ hn⟩⟩

end Sys2Proof.Machine
end

section
/-! When a port takes a cycle, and how the beats of a write arrive (R144, R145, R157, R159). -/

namespace Sys2Proof.Machine

theorem State.cycle_of_busy {s : State} {p : PortId} (h : ¬ s.takesCycle p) (f : State → State) : s.cycle p f = s :=
  if_neg h

theorem exec_memWrite (p : PortId) (a : Addr) (d : WriteData) (s : State) : exec (.memWrite p a d) s =
    .next (s.arrive p ⟨2, a, d.len, d.beats⟩ fun r t => t.writeCycle p r.addr r.beats) := rfl

theorem exec_malformedCycle_of_write {r : RawCycle} (h : r.kind = 2 ∨ r.kind = 4 ∨ r.kind = 6) (p : PortId)
    (s : State) : exec (.malformedCycle p r) s = .next (s.arrive p r fun q t => t.takeRaw p q) := by
  change Host.Outcome.next _ = _
  obtain ⟨kind, addr, len, beats⟩ := r
  rcases h with rfl | rfl | rfl <;> rfl

theorem exec_malformedCycle_of_read {r : RawCycle} (h0 : r.kind ≠ 0) (h : ¬ (r.kind = 2 ∨ r.kind = 4 ∨ r.kind = 6))
    (p : PortId) (s : State) : exec (.malformedCycle p r) s = .next (s.cycle p fun t => t.takeRaw p r) := by
  change Host.Outcome.next _ = _
  rw [if_neg h0, if_neg (by simpa [writeKind, or_assoc] using h)]

theorem exec_malformedCycle_of_none {r : RawCycle} (h : r.kind = 0) (p : PortId) (s : State) :
    exec (.malformedCycle p r) s = .next s := by
  change Host.Outcome.next _ = _
  rw [if_pos h]

/-- A command that is a cycle is taken by its port whole, or as arriving beats of a write (R144, R145). -/
theorem exec_of_pins {i : Instr} {p : PortId} {r : RawCycle} (h : i.pins = some (p, r)) (s : State) :
    exec i s = .next s ∨ (∃ f, exec i s = .next (s.cycle p f)) ∨
    ((∃ a d, i = .memWrite p a d) ∨ ∃ q, i = .malformedCycle p q) ∧
      ∃ take, exec i s = .next (s.arrive p r take) := by
  cases i with
  | memWrite q a d =>
    obtain ⟨rfl, rfl⟩ := Prod.mk.inj (Option.some.inj h)
    exact .inr (.inr ⟨.inl ⟨a, d, rfl⟩, _, exec_memWrite ..⟩)
  | malformedCycle q raw =>
    obtain ⟨rfl, rfl⟩ := Prod.mk.inj (Option.some.inj h)
    by_cases h0 : raw.kind = 0
    · exact .inl (exec_malformedCycle_of_none h0 ..)
    · by_cases hw : raw.kind = 2 ∨ raw.kind = 4 ∨ raw.kind = 6
      · exact .inr (.inr ⟨.inr ⟨raw, rfl⟩, _, exec_malformedCycle_of_write hw ..⟩)
      · exact .inr (.inl ⟨_, exec_malformedCycle_of_read h0 hw ..⟩)
  | portReset | partReset | qreqAsserted | qreqNegated | tick | lifetimeExpiry | windowExpiry | storageFault | grant
  | memoryBeatAnswer | jobStart | portResetRelease | partResetRelease | tickPinFall => exact absurd h nofun
  | markOpen | markClose | markDrop | markRecAddr | markStatus | markGetCfg | setCfgRegion | setCfgPairing
  | setCfgLifetime | setCfgSlotCaps | setCfgEscalation | setCfgTickSource | setCfgFaultMasks | setCfgUndefinedItem
  | memRead | lockRead | lockWrite =>
    obtain ⟨rfl, rfl⟩ := Prod.mk.inj (Option.some.inj h)
    exact .inr (.inl ⟨_, rfl⟩)

/-- Settles O20: a cycle taken whole needs a port that takes cycles, arriving beats one that awaits them. -/
theorem portThatCannotTakeACycle : Obligations.PortThatCannotTakeACycle := by
  intro s i p r hpins
  have hbusy : (s.rst ∨ (s.port p).resetPin ∨
      ∃ y, (s.port p).cycle = some y ∧ (y.kind ≠ r.kind ∨ ∀ got, y.phase ≠ .arriving got)) →
      exec i s = .next s := by
    intro h
    have hnot : ¬ s.takesCycle p := by
      rcases h with h | h | ⟨y, h, -⟩ <;> simp [State.takesCycle, h]
    obtain h' | ⟨f, h'⟩ | ⟨-, take, h'⟩ := exec_of_pins hpins s
    · exact h'
    · rw [h', State.cycle_of_busy hnot]
    · rw [h', State.arrive_of_busy h]
  refine ⟨fun h => hbusy (.inl h), fun h => hbusy (.inr (.inl h)),
    fun y hy h => hbusy (.inr (.inr ⟨y, hy, .inr h⟩)), fun y hy h => ?_⟩
  rcases h with hkind | ⟨hwrite, hraw⟩
  · exact hbusy (.inr (.inr ⟨y, hy, .inl (Ne.symm hkind)⟩))
  · obtain h' | ⟨f, h'⟩ | ⟨⟨a, d, h'⟩ | ⟨q, h'⟩, -⟩ := exec_of_pins hpins s
    · exact h'
    · rw [h', State.cycle_of_busy (by simp [State.takesCycle, hy])]
    · exact absurd h' (hwrite a d)
    · exact absurd h' (hraw q)

/-! ### Arriving beats -/

theorem State.takesCycle_iff (s : State) (p : PortId) : s.takesCycle p = true ↔
    s.rst = false ∧ (s.port p).resetPin = false ∧ (s.port p).cycle = none := by
  simp [State.takesCycle, and_assoc]

section
variable {s : State} {p : PortId} {r : RawCycle} (take : RawCycle → State → State)

theorem State.arrive_of_takes (h : s.takesCycle p) : s.arrive p r take = (s.answered p []).received p r take := by
  obtain ⟨hrst, hpin, hcycle⟩ := (s.takesCycle_iff p).mp h
  unfold State.arrive
  rw [if_neg (by simp [hrst, hpin]), hcycle]
  rfl

theorem State.arrive_of_arriving (hrst : s.rst = false) (hpin : (s.port p).resetPin = false) {a : Addr} {n : BitVec 2}
    {got : List WriteBeat} (hcycle : (s.port p).cycle = some ⟨r.kind, a, n, .arriving got⟩) :
    s.arrive p r take = s.received p ⟨r.kind, a, n, got ++ r.beats⟩ take := by
  unfold State.arrive
  rw [if_neg (by simp [hrst, hpin]), hcycle]
  exact if_pos rfl

theorem State.received_of_short (h : r.beats.length < 2 ^ r.len.toNat) :
    s.received p r take = s.setCycle p (some ⟨r.kind, r.addr, r.len, .arriving r.beats⟩) := if_pos h

theorem State.received_of_full (h : 2 ^ r.len.toNat ≤ r.beats.length) : s.received p r take =
    (take { r with beats := r.beats.take (2 ^ r.len.toNat) } (s.setCycle p none)).settle := if_neg h.not_gt

end

/-- A cycle that ends without answers leaves a port as one that takes the next. -/
theorem State.begin_setCycle_none {s : State} {p : PortId} (h : (s.port p).answers = []) :
    ((s.setCycle p none).answered p []).setCycle p none = s.setCycle p none := by
  simp [State.setCycle, State.answered, State.setPort, State.port] at h ⊢
  rw [← h]

/-- Settles O21, by how many beats have come. -/
theorem writeBeatsArrive : Obligations.WriteBeatsArrive := by
  intro s p k a b n m bs bring hbring
  obtain ⟨take, htake⟩ : ∃ take, ∀ x l ws (t : State), exec (bring x l ws) t = .next (t.arrive p ⟨k, x, l, ws⟩ take) := by
    rcases hbring with ⟨rfl, rfl⟩ | ⟨hk, rfl⟩
    · exact ⟨_, fun x l ws t => exec_memWrite p x ⟨l, ws⟩ t⟩
    · exact ⟨_, fun x l ws t => exec_malformedCycle_of_write hk p t⟩
  have hfull : ∀ ws : List WriteBeat, 2 ^ n.toNat ≤ ws.length → 2 ^ n.toNat ≤ (ws.take (2 ^ n.toNat)).length :=
    fun ws h => by simp [h]
  have htwice : ∀ ws : List WriteBeat, (ws.take (2 ^ n.toNat)).take (2 ^ n.toNat) = ws.take (2 ^ n.toNat) :=
    fun ws => by rw [List.take_take, min_self]
  simp only [htake]
  refine ⟨fun hs hshort => ?_, fun hs hlong => ?_, fun got hrst hpin hcycle => ⟨fun hshort => ?_,
    fun hlong hanswers => ?_⟩⟩
  · rw [State.arrive_of_takes take hs, State.received_of_short take hshort]
  · rw [State.arrive_of_takes take hs, State.arrive_of_takes take hs, State.received_of_full take hlong,
      State.received_of_full take (hfull bs hlong), htwice]
  · rw [State.arrive_of_arriving take hrst hpin hcycle, State.received_of_short take hshort]
  · have htakes : (s.setCycle p none).takesCycle p :=
      (State.takesCycle_iff _ p).mpr ⟨hrst, by simpa [State.setCycle] using hpin, by simp [State.setCycle]⟩
    rw [State.arrive_of_arriving take hrst hpin hcycle, State.received_of_full take hlong,
      State.arrive_of_takes take htakes, State.received_of_full take (hfull _ hlong), State.begin_setCycle_none hanswers,
      htwice]

end Sys2Proof.Machine
end

section
/-! The reading of a master port's pins (R144, R145, R147, R153, R174, R186). -/

namespace Sys2Proof.Machine

/-! ### Mark addresses -/

theorem markAddr_eq_add (code : Nat) (arg : Arg) :
    markAddr code arg = BitVec.ofNat 28 (code * 2 ^ 18) + BitVec.ofNat 28 (arg.toNat * 4) := by
  rw [markAddr, BitVec.ofNat_add]

theorem toNat_markAddr {code : Nat} (hcode : code < 16) (arg : Arg) :
    (markAddr code arg).toNat = code * 2 ^ 18 + arg.toNat * 4 := by
  have harg := arg.isLt
  rw [markAddr, BitVec.toNat_ofNat, Nat.mod_eq_of_lt (by omega)]

theorem toNat_extractLsb'_div {w : Nat} (x : BitVec w) (k n : Nat) :
    (x.extractLsb' k n).toNat = x.toNat / 2 ^ k % 2 ^ n := by
  rw [BitVec.extractLsb'_toNat, Nat.shiftRight_eq_div_pow]

/-- A mark address gives back its code and its argument, and has no bit elsewhere (R186). -/
theorem markAddr_fields {code : Nat} (hcode : code < 16) (arg : Arg) :
    markCodeOf (markAddr code arg) = code ∧ markArgOf (markAddr code arg) = arg ∧
    (markAddr code arg).extractLsb' 22 6 = 0 ∧ (markAddr code arg).extractLsb' 0 2 = 0 := by
  have haddr := toNat_markAddr hcode arg
  have harg := arg.isLt
  refine ⟨?_, BitVec.eq_of_toNat_eq ?_, BitVec.eq_of_toNat_eq ?_, BitVec.eq_of_toNat_eq ?_⟩
  · rw [markCodeOf, toNat_extractLsb'_div, haddr]
    omega
  · rw [markArgOf, toNat_extractLsb'_div, haddr]
    omega
  · rw [toNat_extractLsb'_div, haddr, show (0 : BitVec 6).toNat = 0 from rfl]
    omega
  · rw [toNat_extractLsb'_div, haddr, show (0 : BitVec 2).toNat = 0 from rfl]
    omega

theorem markArgOf_eq {a : Addr} {arg : Arg} (h : ∀ i < 16, arg.getLsbD i = a.getLsbD (i + 2)) : markArgOf a = arg := by
  refine BitVec.eq_of_getLsbD_eq fun i hi => ?_
  rw [markArgOf, BitVec.getLsbD_extractLsb', h i hi]
  simp [hi, Nat.add_comm]

/-! ### Malformed marks -/

theorem malformedMark_iff (codes : List Nat) (r : RawCycle) : malformedMark codes r = true ↔
    r.len ≠ 0 ∨ (r.beat 0).en ≠ 0xF ∨ r.addr.extractLsb' 22 6 ≠ 0 ∨ r.addr.extractLsb' 0 2 ≠ 0 ∨
      markCodeOf r.addr ∉ codes := by
  simp [malformedMark, or_assoc]

/-- A mark of one beat at an address that is aligned to words has the form of a burst (R145, R147). -/
theorem aligned_of_extractLsb' {a : Addr} (h : a.extractLsb' 0 2 = 0) : a.toNat % (4 * beatsOf 0) = 0 := by
  have := congrArg BitVec.toNat h
  rw [toNat_extractLsb'_div] at this
  change _ = 0 at this
  change a.toNat % 4 = 0
  omega

section
variable {r : RawCycle} {codes : List Nat}
  (hkind : r.kind = 5 ∧ codes = readMarkCodes ∨ r.kind = 6 ∧ codes = writeMarkCodes)
include hkind

theorem malformed_of_malformedMark (h : malformedMark codes r = true) : malformed r = true := by
  rcases hkind with ⟨hk, rfl⟩ | ⟨hk, rfl⟩ <;> simp [malformed, hk, h]

theorem malformed_of_mark (hlen : r.len = 0) (hen : (r.beat 0).en = 0xF) (hhigh : r.addr.extractLsb' 22 6 = 0)
    (hlow : r.addr.extractLsb' 0 2 = 0) (hcode : markCodeOf r.addr ∈ codes) : malformed r = false := by
  have hmark : malformedMark codes r = false := by
    rw [Bool.eq_false_iff, ne_eq, malformedMark_iff]
    tauto
  have halign := aligned_of_extractLsb' hlow
  rw [← hlen] at halign
  rcases hkind with ⟨hk, rfl⟩ | ⟨hk, rfl⟩ <;> simp [malformed, hk, hmark, halign]

end

/-! ### The command of a cycle -/

theorem decodeCycle_of_malformed {r : RawCycle} (h : malformed r = true) (p : PortId) :
    decodeCycle p r = some (.malformedCycle p r) := by
  have h0 : r.kind ≠ 0 := fun h0 => by simp [malformed, h0] at h
  rw [decodeCycle, if_neg h0, if_pos h]

theorem decodeCycle_readMark {r : RawCycle} (hkind : r.kind = 5) (h : malformed r = false) (p : PortId) :
    decodeCycle p r = readMarkOf p (markCodeOf r.addr) (markArgOf r.addr) := by
  simp [decodeCycle, hkind, h]

theorem decodeCycle_writeMark {r : RawCycle} (hkind : r.kind = 6) (h : malformed r = false) (p : PortId) :
    decodeCycle p r =
      writeMarkOf p (markCodeOf r.addr) (markArgOf r.addr) (r.beat 0).data (r.beat 0).par := by
  simp [decodeCycle, hkind, h]

/-- The SETCFG row of each item (R174). -/
theorem setCfgOf_eq (p : PortId) (arg : Arg) (data : Word) (par : Lanes) :
    (∀ k : Fin 8, arg.toNat = k.val → setCfgOf p arg data par = .setCfgRegion p k data par) ∧
    (arg = 0x08 → setCfgOf p arg data par = .setCfgPairing p data par) ∧
    (∀ c : CtxId, arg.toNat = 0x09 + c.val → setCfgOf p arg data par = .setCfgLifetime p c data par) ∧
    (arg = 0x0D → setCfgOf p arg data par = .setCfgSlotCaps p data par) ∧
    (arg = 0x0E → setCfgOf p arg data par = .setCfgEscalation p data par) ∧
    (arg = 0x0F → setCfgOf p arg data par = .setCfgTickSource p data par) ∧
    (arg = 0x10 → setCfgOf p arg data par = .setCfgFaultMasks p data par) ∧
    (0x10 < arg.toNat → setCfgOf p arg data par = .setCfgUndefinedItem p arg data par) := by
  refine ⟨fun k hk => ?_, fun h => h ▸ rfl, fun c hc => ?_, fun h => h ▸ rfl, fun h => h ▸ rfl, fun h => h ▸ rfl,
    fun h => h ▸ rfl, fun h => ?_⟩
  · have hlt : arg.toNat < 8 := hk ▸ k.isLt
    rw [setCfgOf, dif_pos hlt]
    congr 1
    exact Fin.ext hk
  · have harg : arg = BitVec.ofNat 16 (0x09 + c.val) := BitVec.eq_of_toNat_eq (by
      have := c.isLt
      rw [hc, BitVec.toNat_ofNat, Nat.mod_eq_of_lt (by omega)])
    subst harg
    fin_cases c <;> rfl
  · have hne : ∀ n : Arg, n.toNat ≤ 0x10 → arg ≠ n := fun n hn hcontra => by
      subst hcontra
      omega
    rw [setCfgOf, dif_neg (by omega), if_neg (hne 0x08 (by decide)), if_neg (hne 0x09 (by decide)),
      if_neg (hne 0x0A (by decide)), if_neg (hne 0x0B (by decide)), if_neg (hne 0x0C (by decide)),
      if_neg (hne 0x0D (by decide)), if_neg (hne 0x0E (by decide)), if_neg (hne 0x0F (by decide)),
      if_neg (hne 0x10 (by decide))]

/-- Settles O22: a mark by the fields of its address. -/
theorem markAddressesDecode : Obligations.MarkAddressesDecode := by
  refine ⟨fun p r code arg data par hkind hcode harg => ⟨fun hbad => ?bad, fun hhigh hlow hlen hbeat => ?good⟩,
    fun arg => ?address⟩
  case bad =>
    have hmalformed : malformed r = true := by
      rw [hcode] at hbad
      rcases hkind with h5 | h6
      · refine malformed_of_malformedMark (.inl ⟨h5, rfl⟩) ((malformedMark_iff _ _).mpr ?_)
        simp only [h5, true_and, show (5 : BitVec 3) ≠ 6 by decide, false_and, or_false] at hbad
        exact .inr (.inr hbad)
      · refine malformed_of_malformedMark (.inr ⟨h6, rfl⟩) ((malformedMark_iff _ _).mpr ?_)
        simp only [h6, true_and, show (6 : BitVec 3) ≠ 5 by decide, false_and, false_or] at hbad
        exact .inr (.inr hbad)
    exact decodeCycle_of_malformed hmalformed p
  case good =>
    have hcodeOf : markCodeOf r.addr = code := hcode.symm
    have hargOf := markArgOf_eq harg
    have hen : (r.beat 0).en = 0xF := by rw [hbeat]
    have hread : r.kind = 5 → code ∈ readMarkCodes → decodeCycle p r = readMarkOf p code arg := fun h hmem => by
      rw [decodeCycle_readMark h (malformed_of_mark (.inl ⟨h, rfl⟩) hlen hen hhigh hlow (hcodeOf ▸ hmem)), hcodeOf,
        hargOf]
    have hwrite : r.kind = 6 → code ∈ writeMarkCodes → decodeCycle p r = writeMarkOf p code arg data par :=
      fun h hmem => by
        rw [decodeCycle_writeMark h (malformed_of_mark (.inr ⟨h, rfl⟩) hlen hen hhigh hlow (hcodeOf ▸ hmem)), hcodeOf,
          hargOf, hbeat]
    clear hcode hcodeOf
    refine ⟨fun h => ⟨?_, ?_, ?_, ?_⟩, fun h => ⟨?_, ?_, ?_⟩⟩
    · rintro rfl
      exact hread h (by decide)
    · rintro rfl
      exact hread h (by decide)
    · rintro rfl
      exact hread h (by decide)
    · rintro rfl
      exact hread h (by decide)
    · rintro rfl
      exact hwrite h (by decide)
    · rintro rfl
      exact hwrite h (by decide)
    · rintro rfl
      have hset : decodeCycle p r = some (setCfgOf p arg data par) := hwrite h (by decide)
      simp only [hset, Option.some.injEq]
      exact setCfgOf_eq p arg data par
  case address =>
    simp only [List.all_cons, List.all_nil, markAddr_eq_add]
    simp

/-! ### Commands read back from their pins -/

theorem code_lt_of_mem {code : Nat} (h : code ∈ readMarkCodes ∨ code ∈ writeMarkCodes) : code < 16 := by
  simp only [readMarkCodes, writeMarkCodes, List.mem_cons, List.not_mem_nil, or_false] at h
  omega

theorem readMark_readBack {code : Nat} (hcode : code ∈ readMarkCodes) (arg : Arg) (p : PortId) :
    decodeCycle p (readMarkPins code arg) = readMarkOf p code arg := by
  obtain ⟨hcodeOf, hargOf, hhigh, hlow⟩ := markAddr_fields (code_lt_of_mem (.inl hcode)) arg
  have hmalformed : malformed (readMarkPins code arg) = false :=
    malformed_of_mark (.inl ⟨rfl, rfl⟩) rfl rfl hhigh hlow (by rw [readMarkPins, hcodeOf]; exact hcode)
  rw [decodeCycle_readMark rfl hmalformed, readMarkPins, hcodeOf, hargOf]

theorem writeMark_readBack {code : Nat} (hcode : code ∈ writeMarkCodes) (arg : Arg) (data : Word) (par : Lanes)
    (p : PortId) : decodeCycle p (writeMarkPins code arg data par) = writeMarkOf p code arg data par := by
  obtain ⟨hcodeOf, hargOf, hhigh, hlow⟩ := markAddr_fields (code_lt_of_mem (.inr hcode)) arg
  have hmalformed : malformed (writeMarkPins code arg data par) = false :=
    malformed_of_mark (.inr ⟨rfl, rfl⟩) rfl rfl hhigh hlow (by rw [writeMarkPins, hcodeOf]; exact hcode)
  rw [decodeCycle_writeMark rfl hmalformed, writeMarkPins, hcodeOf, hargOf]
  rfl

theorem setCfg_readBack (arg : Arg) (data : Word) (par : Lanes) (p : PortId) :
    decodeCycle p (writeMarkPins 11 arg data par) = some (setCfgOf p arg data par) :=
  writeMark_readBack (by decide) arg data par p

/-- A memory cycle of a legal burst is not malformed, a locked one being of one beat (R147). -/
theorem malformed_of_memory {r : RawCycle} (hkind : r.kind = 1 ∨ r.kind = 2 ∨ (r.kind = 3 ∨ r.kind = 4) ∧ r.len = 0)
    (h : r.addr.toNat % (4 * beatsOf r.len) = 0) : malformed r = false := by
  rcases hkind with hk | hk | ⟨hk | hk, hlen⟩
  · simp [malformed, hk, h]
  · simp [malformed, hk, h]
  · simp only [malformed, hk, h]
    simp [hlen]
  · simp only [malformed, hk, h]
    simp [hlen]

/-- A well-formed command that is a cycle is what its pins decode to. -/
theorem decodeCycle_pins {i : Instr} {p : PortId} {r : RawCycle} (hwf : i.wellFormed) (hpins : i.pins = some (p, r)) :
    decodeCycle p r = some i := by
  cases i with
  | portReset | partReset | qreqAsserted | qreqNegated | tick | lifetimeExpiry | windowExpiry | storageFault | grant
  | memoryBeatAnswer | jobStart | portResetRelease | partResetRelease | tickPinFall => exact absurd hpins nofun
  | markOpen q arg | markClose q arg | markStatus q arg | markGetCfg q arg =>
    obtain ⟨rfl, rfl⟩ := Prod.mk.inj (Option.some.inj hpins)
    exact readMark_readBack (by decide) arg q
  | markDrop q arg data par | markRecAddr q arg data par =>
    obtain ⟨rfl, rfl⟩ := Prod.mk.inj (Option.some.inj hpins)
    exact writeMark_readBack (by decide) arg data par q
  | setCfgPairing q data par | setCfgSlotCaps q data par | setCfgEscalation q data par | setCfgTickSource q data par
  | setCfgFaultMasks q data par =>
    obtain ⟨rfl, rfl⟩ := Prod.mk.inj (Option.some.inj hpins)
    exact setCfg_readBack _ data par q
  | setCfgRegion q k data par =>
    obtain ⟨rfl, rfl⟩ := Prod.mk.inj (Option.some.inj hpins)
    rw [setCfg_readBack]
    fin_cases k <;> rfl
  | setCfgLifetime q c data par =>
    obtain ⟨rfl, rfl⟩ := Prod.mk.inj (Option.some.inj hpins)
    rw [setCfg_readBack]
    fin_cases c <;> rfl
  | setCfgUndefinedItem q item data par =>
    obtain ⟨rfl, rfl⟩ := Prod.mk.inj (Option.some.inj hpins)
    obtain ⟨-, -, -, -, -, -, -, hother⟩ := setCfgOf_eq q item data par
    rw [setCfg_readBack, hother (by simpa [Instr.wellFormed] using hwf)]
  | memRead q a ens =>
    obtain ⟨rfl, rfl⟩ := Prod.mk.inj (Option.some.inj hpins)
    obtain ⟨hlen, halign⟩ := (legalBurst_iff a ens.length).mp hwf
    have hbeats : beatsOf (lenCode ens.length) = ens.length := two_pow_lenCode hlen
    have hmalformed := malformed_of_memory (r := ⟨1, a, lenCode ens.length, ens.map fun e => ⟨e, 0, 0⟩⟩) (.inl rfl)
      (hbeats.symm ▸ halign)
    have hens : (List.range ens.length).map
        (fun i => (RawCycle.beat ⟨1, a, lenCode ens.length, ens.map fun e => ⟨e, 0, 0⟩⟩ i).en) = ens := by
      refine List.ext_getElem (by simp) fun i hi hi' => ?_
      simp [RawCycle.beat, hi']
    simp only [decodeCycle, hmalformed, hbeats, hens]
    rfl
  | memWrite q a d =>
    obtain ⟨rfl, rfl⟩ := Prod.mk.inj (Option.some.inj hpins)
    simp only [Instr.wellFormed, Bool.and_eq_true, legalBurst_iff] at hwf
    obtain ⟨⟨-, halign⟩, -⟩ := hwf
    have hmalformed := malformed_of_memory (r := ⟨2, a, d.len, d.beats⟩) (.inr (.inl rfl)) halign
    simp only [decodeCycle, hmalformed]
    rfl
  | lockRead q a en =>
    obtain ⟨rfl, rfl⟩ := Prod.mk.inj (Option.some.inj hpins)
    obtain ⟨-, halign⟩ := (legalBurst_iff a 1).mp hwf
    have hmalformed := malformed_of_memory (r := ⟨3, a, 0, [⟨en, 0, 0⟩]⟩) (.inr (.inr ⟨.inl rfl, rfl⟩)) halign
    simp only [decodeCycle, hmalformed]
    rfl
  | lockWrite q a beat =>
    obtain ⟨rfl, rfl⟩ := Prod.mk.inj (Option.some.inj hpins)
    obtain ⟨-, halign⟩ := (legalBurst_iff a 1).mp hwf
    have hmalformed := malformed_of_memory (r := ⟨4, a, 0, [beat]⟩) (.inr (.inr ⟨.inr rfl, rfl⟩)) halign
    simp only [decodeCycle, hmalformed]
    rfl
  | malformedCycle q raw =>
    obtain ⟨rfl, rfl⟩ := Prod.mk.inj (Option.some.inj hpins)
    simp only [Instr.wellFormed, Bool.and_eq_true] at hwf
    exact decodeCycle_of_malformed hwf.1 q

/-! ### A raw cycle does what the command does that it decodes to -/

theorem State.cycle_congr {s : State} {p : PortId} {f g : State → State} (h : f (s.beginCycle p) = g (s.beginCycle p)) :
    s.cycle p f = s.cycle p g := by
  unfold State.cycle
  rw [h]

theorem State.setCycle_none_beginCycle {s : State} {p : PortId} (h : (s.port p).cycle = none) :
    (s.beginCycle p).setCycle p none = s.beginCycle p := by
  simp [State.setCycle, State.beginCycle, State.setPort, State.port] at h ⊢
  rw [← h]

/-- All the beats of a write at a port without a cycle are taken as any other cycle, those beyond its length dropped. -/
theorem State.arrive_eq_cycle {s : State} {p : PortId} (h : (s.port p).cycle = none) {r : RawCycle}
    (hr : 2 ^ r.len.toNat ≤ r.beats.length) (take : RawCycle → State → State) : s.arrive p r take =
    s.cycle p (take { r with beats := r.beats.take (2 ^ r.len.toNat) }) := by
  by_cases hs : s.takesCycle p
  · rw [State.arrive_of_takes take hs, State.received_of_full take hr, State.cycle, if_pos hs]
    exact congrArg (fun t => State.settle (take _ t)) (State.setCycle_none_beginCycle h)
  · have hbusy : s.rst ∨ (s.port p).resetPin := by
      by_contra hnot
      exact hs ((s.takesCycle_iff p).mpr ⟨by simp_all, by simp_all, h⟩)
    rw [State.cycle_of_busy hs, State.arrive_of_busy]
    exact hbusy.elim .inl fun hpin => .inr (.inl hpin)

theorem State.takeRaw_of_decode {p : PortId} {r : RawCycle} {i : Instr} (h : decodeCycle p r = some i) (s : State) :
    s.takeRaw p r = s.takeCycle i := by
  rw [State.takeRaw, h]

/-- A cycle that is taken whole: neither a MEM-WRITE, whose beats arrive, nor a raw one. -/
def takenWhole : Instr → Bool
  | .memWrite _ _ _ | .malformedCycle _ _ => false
  | i => i.pins.isSome

theorem exec_eq_takeCycle {i : Instr} {p : PortId} {r : RawCycle} (h : i.pins = some (p, r))
    (hwhole : takenWhole i = true) (s : State) : exec i s = .next (s.cycle p fun t => t.takeCycle i) := by
  cases i with
  | memWrite | malformedCycle => exact absurd hwhole nofun
  | portReset | partReset | qreqAsserted | qreqNegated | tick | lifetimeExpiry | windowExpiry | storageFault | grant
  | memoryBeatAnswer | jobStart | portResetRelease | partResetRelease | tickPinFall => exact absurd h nofun
  | markOpen | markClose | markDrop | markRecAddr | markStatus | markGetCfg | setCfgRegion | setCfgPairing
  | setCfgLifetime | setCfgSlotCaps | setCfgEscalation | setCfgTickSource | setCfgFaultMasks | setCfgUndefinedItem
  | memRead | lockRead | lockWrite =>
    obtain ⟨rfl, rfl⟩ := Prod.mk.inj (Option.some.inj h)
    rfl

theorem takenWhole_readMarkOf {p : PortId} {code : Nat} {arg : Arg} {i : Instr} (h : readMarkOf p code arg = some i) :
    takenWhole i = true := by
  unfold readMarkOf at h
  split_ifs at h <;> cases h <;> rfl

theorem takenWhole_setCfgOf (p : PortId) (arg : Arg) (data : Word) (par : Lanes) :
    takenWhole (setCfgOf p arg data par) = true := by
  unfold setCfgOf
  split_ifs <;> rfl

theorem takenWhole_writeMarkOf {p : PortId} {code : Nat} {arg : Arg} {data : Word} {par : Lanes} {i : Instr}
    (h : writeMarkOf p code arg data par = some i) : takenWhole i = true := by
  unfold writeMarkOf at h
  split_ifs at h <;> cases h
  · rfl
  · rfl
  · exact takenWhole_setCfgOf p arg data par

/-- Only a raw cycle of kind 2, or a malformed one, decodes to a command that is not taken whole. -/
theorem takenWhole_of_decodeCycle {p : PortId} {r : RawCycle} {i : Instr} (h : decodeCycle p r = some i)
    (hmal : malformed r = false) (hkind : r.kind ≠ 2) : takenWhole i = true := by
  unfold decodeCycle at h
  rw [if_neg (by simp [hmal] : ¬ malformed r = true), if_neg hkind] at h
  split at h
  · cases h
  split at h
  · cases h
    rfl
  split at h
  · cases h
    rfl
  split at h
  · cases h
    rfl
  split at h
  · exact takenWhole_readMarkOf h
  · exact takenWhole_writeMarkOf h

/-- The first beat tells whether a cycle is malformed (R147). -/
theorem malformed_congr {r q : RawCycle} (hkind : q.kind = r.kind) (haddr : q.addr = r.addr) (hlen : q.len = r.len)
    (hbeat : q.beat 0 = r.beat 0) : malformed q = malformed r := by
  unfold malformed malformedMark
  rw [hkind, haddr, hlen, hbeat]

/-- Of a LOCK-WRITE and a write mark the first beat alone is read. -/
theorem decodeCycle_congr {p : PortId} {r q : RawCycle} (hk : r.kind = 4 ∨ r.kind = 6) (hmal : malformed r = false)
    (hkind : q.kind = r.kind) (haddr : q.addr = r.addr) (hlen : q.len = r.len) (hbeat : q.beat 0 = r.beat 0) :
    decodeCycle p q = decodeCycle p r := by
  have hmal' := (malformed_congr hkind haddr hlen hbeat).trans hmal
  unfold decodeCycle
  rw [hmal, hmal', hkind, haddr, hbeat]
  rcases hk with hk | hk <;> rw [hk] <;> rfl

theorem beat_zero_take (beats : List WriteBeat) (kind : BitVec 3) (a : Addr) (len : BitVec 2) (n : Nat) :
    RawCycle.beat ⟨kind, a, len, beats.take (2 ^ n)⟩ 0 = RawCycle.beat ⟨kind, a, len, beats⟩ 0 := by
  simp [RawCycle.beat]

theorem decodeCycle_memWrite {r : RawCycle} (hkind : r.kind = 2) (hmal : malformed r = false) (p : PortId) :
    decodeCycle p r = some (.memWrite p r.addr ⟨r.len, r.beats⟩) := by
  simp [decodeCycle, hkind, hmal]

/-- A raw cycle with all its beats does what the command does that it decodes to (log entry 15). -/
theorem exec_malformedCycle_of_decode {s : State} {i : Instr} {p : PortId} {r : RawCycle}
    (h : decodeCycle p r = some i) (hcycle : (s.port p).cycle = none) (hbeats : 2 ^ r.len.toNat ≤ r.beats.length) :
    exec (.malformedCycle p r) s = exec i s := by
  have h0 : r.kind ≠ 0 := fun h0 => by simp [decodeCycle, h0] at h
  cases hmal : malformed r with
  | true =>
    rw [decodeCycle_of_malformed hmal p] at h
    rw [Option.some.inj h]
  | false =>
    obtain ⟨kind, a, len, beats⟩ := r
    have hbeat := beat_zero_take beats kind a len len.toNat
    have hmal' : malformed ⟨kind, a, len, beats.take (2 ^ len.toNat)⟩ = false :=
      (malformed_congr (q := ⟨kind, a, len, beats.take (2 ^ len.toNat)⟩)
        (r := ⟨kind, a, len, beats⟩) rfl rfl rfl hbeat).trans hmal
    by_cases h2 : kind = 2
    · rw [decodeCycle_memWrite h2 hmal] at h
      obtain rfl := Option.some.inj h
      subst h2
      rw [exec_malformedCycle_of_write (.inl rfl), exec_memWrite, State.arrive_eq_cycle hcycle hbeats,
        State.arrive_eq_cycle hcycle hbeats]
      exact congrArg _ (State.cycle_congr (State.takeRaw_of_decode (decodeCycle_memWrite rfl hmal' p) _))
    · obtain ⟨q, hpins⟩ := decodeCycle_port h
      rw [exec_eq_takeCycle hpins (takenWhole_of_decodeCycle h hmal h2)]
      by_cases hk : kind = 4 ∨ kind = 6
      · have hdecode : decodeCycle p ⟨kind, a, len, beats.take (2 ^ len.toNat)⟩ = some i :=
          (decodeCycle_congr (q := ⟨kind, a, len, beats.take (2 ^ len.toNat)⟩)
        (r := ⟨kind, a, len, beats⟩) hk hmal rfl rfl rfl hbeat).trans h
        rw [exec_malformedCycle_of_write (.inr hk), State.arrive_eq_cycle hcycle hbeats]
        exact congrArg _ (State.cycle_congr (State.takeRaw_of_decode hdecode _))
      · rw [exec_malformedCycle_of_read h0 (not_or.mpr ⟨h2, hk⟩)]
        exact congrArg _ (State.cycle_congr (State.takeRaw_of_decode h _))

/-- Settles O23: commands from their pins, then raw cycles by their kind. -/
theorem cyclesAreReadBackFromTheirPins : Obligations.CyclesAreReadBackFromTheirPins :=
  ⟨fun _ _ _ hwf hpins => decodeCycle_pins hwf hpins, fun _ _ _ _ h hcycle hbeats =>
    exec_malformedCycle_of_decode h hcycle hbeats, fun s p _ h => exec_malformedCycle_of_none h p s⟩

end Sys2Proof.Machine
end

section
/-! What the memory cycles read of the state, the cycles at a free port, and their counting (R5, R46, R125, R126,
R148). -/

namespace Sys2Proof.Machine

/-! ### States that a memory cycle cannot tell apart -/

/-- The two states agree in all that the handling of a memory cycle looks at before it acts: regions, directory, store,
locks, age list and token, and of every context its state, bound and escape. -/
structure State.Alike (s t : State) : Prop where
  regions : t.regions = s.regions
  readSets : t.readSets = s.readSets
  orders : t.orders = s.orders
  slots : t.slots = s.slots
  inFlight : t.inFlight = s.inFlight
  ages : t.ages = s.ages
  token : t.token = s.token
  pair : ∀ q, (t.port q).pair = (s.port q).pair
  state : ∀ d, (t.ctx d).state = (s.ctx d).state
  bounded : ∀ d, (t.ctx d).bounded = (s.ctx d).bounded
  escape : ∀ d, (t.ctx d).escape = (s.ctx d).escape

namespace State.Alike

variable {s t : State} (h : State.Alike s t)
include h

theorem trans {u : State} (k : State.Alike t u) : State.Alike s u :=
  ⟨k.regions.trans h.regions, k.readSets.trans h.readSets, k.orders.trans h.orders, k.slots.trans h.slots,
    k.inFlight.trans h.inFlight, k.ages.trans h.ages, k.token.trans h.token, fun q => (k.pair q).trans (h.pair q),
    fun d => (k.state d).trans (h.state d), fun d => (k.bounded d).trans (h.bounded d),
    fun d => (k.escape d).trans (h.escape d)⟩

theorem kindOf (l : Line) : t.kindOf l = s.kindOf l := by rw [State.kindOf, State.kindOf, h.regions]

theorem reads (c : CtxId) : t.reads c = s.reads c := by rw [State.reads, State.reads, h.readSets]

theorem order (c : CtxId) : t.order c = s.order c := by rw [State.order, State.order, h.orders]

theorem slotLine (i : SlotId) : t.slotLine i = s.slotLine i := by rw [State.slotLine, State.slotLine, h.slots]

theorem writes (c : CtxId) : t.writes c = s.writes c := by
  rw [State.writes, State.writes, h.order, funext h.slotLine]

theorem slotOf (c : CtxId) (l : Line) : t.slotOf c l = s.slotOf c l := by
  simp only [State.slotOf, h.order, h.slotLine]

theorem inFootprint (c : CtxId) (l : Line) : t.inFootprint c l = s.inFootprint c l := by
  rw [State.inFootprint, State.inFootprint, h.reads, h.writes]

theorem footprintSize (c : CtxId) : t.footprintSize c = s.footprintSize c := by
  rw [State.footprintSize, State.footprintSize, h.reads, h.writes]

theorem holders (l : Line) : t.holders l = s.holders l := by
  simp only [State.holders, h.state, h.inFootprint]

theorem lockedFor (p : PortId) (l : Line) : t.lockedFor p l = s.lockedFor p l := by
  simp only [State.lockedFor, State.commitLocked, State.pairLocked, State.writeInFlight, h.state, h.writes, h.pair,
    h.inFlight]

theorem heldOwnerHas (l : Line) : t.heldOwnerHas l = s.heldOwnerHas l := by
  simp only [State.heldOwnerHas, h.kindOf, h.holders, h.token]

theorem boundsFull (c : CtxId) (l : Line) : t.boundsFull c l = s.boundsFull c l := by
  simp only [State.boundsFull, h.bounded, h.inFootprint, h.footprintSize]

theorem readRivals (c : CtxId) (l : Line) : t.readRivals c l = s.readRivals c l := by
  simp only [State.readRivals, h.state, h.writes]

theorem writeRivals (c : CtxId) (l : Line) : t.writeRivals c l = s.writeRivals c l := by
  simp only [State.writeRivals, h.holders]

theorem beats (x d : CtxId) : t.beats x d = s.beats x d := by
  simp only [State.beats, State.older, h.token, h.ages]

theorem contestWinner (cs : List CtxId) : t.contestWinner cs = s.contestWinner cs := by
  simp only [State.contestWinner, h.token, h.ages]

end State.Alike

theorem State.alike_answered (s : State) (p : PortId) (as : List Answer) : State.Alike s (s.answered p as) :=
  ⟨rfl, rfl, rfl, rfl, rfl, rfl, rfl, pair_answered s p as, fun _ => rfl, fun _ => rfl, fun _ => rfl⟩

theorem State.alike_counted (s : State) (p : PortId) : State.Alike s (s.counted p) := by
  have hself : ∀ x : Context, x.state = (s.ctx (s.serving p)).state → x.bounded = (s.ctx (s.serving p)).bounded →
      x.escape = (s.ctx (s.serving p)).escape → State.Alike s (s.setCtx (s.serving p) x) := by
    intro x hstate hbounded hescape
    refine ⟨rfl, rfl, rfl, rfl, rfl, rfl, rfl, fun _ => rfl, fun d => ?_, fun d => ?_, fun d => ?_⟩
    all_goals
      rw [State.ctx_setCtx]
      split
      · next hd => simp_all
      · rfl
  obtain h | ⟨life, cycles, -, -, -, h | h⟩ := s.counted_eq p
  · rw [h]
    exact ⟨rfl, rfl, rfl, rfl, rfl, rfl, rfl, fun _ => rfl, fun _ => rfl, fun _ => rfl, fun _ => rfl⟩
  · rw [h]
    exact hself _ rfl rfl rfl
  · rw [h]
    exact hself _ rfl rfl rfl

/-- What a memory cycle looks at is there as it was, once the cycle has begun and is counted. -/
theorem State.alike_begun (s : State) (p : PortId) : State.Alike s ((s.answered p []).counted p) :=
  (s.alike_answered p []).trans (State.alike_counted _ p)

/-! ### The counting of a cycle -/

section
variable {s : State} {p : PortId} {c : CtxId} (hc : s.serving p = c)
include hc

theorem State.countCycle_of_not_open (h : (s.ctx c).state ≠ .opened) : s.countCycle p = (s, false) := by
  subst hc
  exact if_neg h

theorem State.counted_of_not_open (h : (s.ctx c).state ≠ .opened) : s.counted p = s := by
  rw [State.counted, State.countCycle_of_not_open hc h]

theorem State.countExpires_of_not_open (h : (s.ctx c).state ≠ .opened) : s.countExpires p = false := by
  rw [State.countExpires, State.countCycle_of_not_open hc h]

theorem State.countCycle_of_time (h : (s.ctx c).state = .opened) (hm : (s.lifetimes.get c).mode = .time) :
    s.countCycle p = (s.setCtx c { s.ctx c with cycles := min 65535 ((s.ctx c).cycles + 1) }, false) := by
  subst hc
  simp [State.countCycle, h, hm, Config.countLimit]

theorem State.countCycle_of_cycles (h : (s.ctx c).state = .opened) (hm : (s.lifetimes.get c).mode = .cycles) :
    s.countCycle p = (s.setCtx c { s.ctx c with
        cycles := min 65535 ((s.ctx c).cycles + 1), lifetime := min 65535 ((s.ctx c).lifetime + 1) },
      (s.lifetimes.get c).limit != 0 && min 65535 ((s.ctx c).lifetime + 1) == (s.lifetimes.get c).limit.toNat) := by
  subst hc
  simp [State.countCycle, h, hm, Config.countLimit, Context.countLife]

end

/-- Settles O31, by the state of the context and the mode of its lifetime counter. -/
theorem groupCyclesAreCounted : Obligations.GroupCyclesAreCounted := by
  refine ⟨fun s p c x hc hx => ⟨fun h => ?_, fun h hm => ?_, fun h hm => ?_⟩, fun s c expired => rfl⟩
  all_goals subst hx
  · exact ⟨State.counted_of_not_open hc h, State.countExpires_of_not_open hc h⟩
  · rw [State.counted, State.countExpires, State.countCycle_of_time hc h hm]
    exact ⟨rfl, rfl⟩
  · rw [State.counted, State.countExpires, State.countCycle_of_cycles hc h hm]
    exact ⟨rfl, by simp⟩

theorem State.expire_false (s : State) (c : CtxId) : s.expire c false = s := rfl

/-- An expiry finds nothing to abort in a context that is not OPEN (R88, R126). -/
theorem State.expire_of_not_open {s : State} {c : CtxId} (h : (s.ctx c).state ≠ .opened) (e : Bool) :
    s.expire c e = s := by
  cases e with
  | false => rfl
  | true => exact State.abort_not_open h _ _ _

/-! ### Memory cycles at a free port -/

section
variable {s : State} {p : PortId} (hfree : s.free p)
include hfree

theorem State.pair_none_of_free : ((s.answered p []).port p).pair = none := by
  rw [pair_answered]
  exact ((s.free_iff p).mp hfree).2

theorem State.cycle_none_of_free : (s.port p).cycle = none :=
  ((s.takesCycle_iff p).mp ((s.free_iff p).mp hfree).1).2.2

theorem exec_memRead_of_free {a : Addr} {ens : List Lanes} (hl : legalBurst a ens.length) :
    exec (.memRead p a ens) s = .next ((s.answered p []).takeRead p a ens).settle := by
  change Host.Outcome.next _ = _
  rw [State.cycle_of_free hfree, State.readCycle, if_pos hl, State.breakPair_of_no_pair (State.pair_none_of_free hfree)]

theorem exec_memWrite_of_free {a : Addr} {bs : List WriteBeat} (hl : legalBurst a bs.length) :
    exec (.memWrite p a ⟨lenCode bs.length, bs⟩) s = .next ((s.answered p []).takeWrite p a bs).settle := by
  have hlen : bs.length = beatsOf (lenCode bs.length) :=
    (two_pow_lenCode ((legalBurst_iff a bs.length).mp hl).1).symm
  rw [exec_memWrite, State.arrive_whole ((s.free_iff p).mp hfree).1 hlen, State.cycle_of_free hfree,
    ← State.beginCycle_eq_answered, State.setCycle_none_beginCycle (State.cycle_none_of_free hfree),
    State.beginCycle_eq_answered, State.writeCycle, if_pos hl,
    State.breakPair_of_no_pair (State.pair_none_of_free hfree)]

theorem exec_lockRead_of_free {a : Addr} (hl : legalBurst a 1) (en : Lanes) :
    exec (.lockRead p a en) s = .next ((s.answered p []).takeLockRead p a en).settle := by
  change Host.Outcome.next _ = _
  rw [State.cycle_of_free hfree, State.lockReadCycle, if_pos hl,
    State.breakPair_of_no_pair (State.pair_none_of_free hfree)]

theorem exec_lockWrite_of_free {a : Addr} (hl : legalBurst a 1) (b : WriteBeat) :
    exec (.lockWrite p a b) s = .next ((s.answered p []).takeStrayWrite p a b).settle := by
  have hpair := State.pair_none_of_free hfree
  change Host.Outcome.next _ = _
  rw [State.cycle_of_free hfree, State.lockWriteCycle, if_pos hl, if_neg (by rw [hpair]; nofun),
    State.breakPair_of_no_pair hpair]

end

end Sys2Proof.Machine
end

section
/-! Memory cycles outside a group (R45, R46, R47), and writes of bad parity (R149). -/

namespace Sys2Proof.Machine

/-! ### A read outside a group -/

theorem State.setFlag_answered (s : State) (p : PortId) (f : Flag) (as : List Answer) :
    (s.answered p as).setFlag p f = s.flagged p f as := by
  simp [State.answered, State.flagged, State.setFlag, State.setPort, State.port]

/-- Answers given beat by beat change a port, and of it the cycle and the answers. -/
theorem State.answerBeats_eq (s : State) (p : PortId) (k : BitVec 3) (a : Addr) (as : List Answer) :
    s.answerBeats p k a as = s.setPort p
      { s.port p with
        cycle := if as.tail = [] then none else some ⟨k, a, lenCode as.length, .answering as.tail⟩
        answers := (s.port p).answers ++ as.take 1 } := State.giveBeats_eq ..

theorem State.settle_flagged_answerBeats {s : State} (h : s.settled) (p : PortId) (f : Flag) (as : List Answer)
    (k : BitVec 3) (a : Addr) (bs : List Answer) :
    ((s.flagged p f as).answerBeats p k a bs).settle = (s.flagged p f as).answerBeats p k a bs := by
  rw [State.answerBeats_eq]
  refine State.settle_of_quiet (s := s.flagged p f as) ?_ rfl rfl rfl rfl fun q => ?_
  · exact State.setPort_settled h rfl
  · rw [State.port_setPort]
    split
    · next hq => rw [hq]
    · rfl

theorem State.ungroupedRead_of_blocked {s : State} {a : Addr} (h : s.kindOf (lineOf a) = .blocked) (p : PortId)
    (ens : List Lanes) : s.ungroupedRead p a ens =
      (s.setFlag p .refused).answerBeats p 1 a (List.replicate ens.length .readError) := if_pos h

theorem State.ungroupedRead_of_locked {s : State} {a : Addr} {p : PortId} (h : s.kindOf (lineOf a) ≠ .blocked)
    (hlocked : s.lockedFor p (lineOf a)) (ens : List Lanes) : s.ungroupedRead p a ens = s.respond p [.retry] :=
  (if_neg h).trans (if_pos hlocked)

theorem State.ungroupedRead_of_sent {s : State} {a : Addr} {p : PortId} (h : s.kindOf (lineOf a) ≠ .blocked)
    (hlocked : s.lockedFor p (lineOf a) = false) (ens : List Lanes) :
    s.ungroupedRead p a ens = s.sendRead p 1 a (plainBeats ens) none :=
  (if_neg h).trans (if_neg (by simp [hlocked]))

/-- A read sent with nothing staged, written out. -/
theorem State.sendRead_plain (s : State) (p : PortId) (k : BitVec 3) (a : Addr) (ens : List Lanes) :
    s.sendRead p k a (plainBeats ens) none =
      (s.setCycle p (some ⟨k, a, lenCode ens.length, .reading (ens.map fun e => ⟨e, 0, 0, false⟩) none⟩)).setReq p
        (some ⟨⟨false, a, ens.map fun e => ⟨e, 0⟩⟩, false⟩) := by
  rw [State.sendRead, plainBeats, List.length_map, List.map_map]
  rfl

/-- A read outside a group is not counted (R5, R45). -/
theorem State.takeRead_of_not_open {s : State} {p : PortId} (h : (s.ctx (s.serving p)).state ≠ .opened) (a : Addr)
    (ens : List Lanes) : s.takeRead p a ens = s.ungroupedRead p a ens := by
  rw [State.takeRead_eq, if_neg h, State.counted_of_not_open rfl h, State.countExpires_of_not_open rfl h,
    State.expire_false]

/-- Settles O24, by kind and locks of the line; and how read answers are paced. -/
theorem ungroupedRead : Obligations.UngroupedRead := by
  refine ⟨fun s p a ens hfree hl hnot => ⟨fun hs hkind => ?_, fun hs hkind hlocked => ?_, fun hkind hlocked => ?_⟩,
    fun s p k a x rest => State.answerBeats_eq ..⟩
  all_goals
    have hlike := s.alike_answered p []
    have htaken := (exec_memRead_of_free hfree hl).trans
      (congrArg (fun t => Host.Outcome.next (State.settle t)) (State.takeRead_of_not_open (s := s.answered p []) hnot a ens))
    rw [htaken]
  · rw [State.ungroupedRead_of_blocked (by rw [hlike.kindOf, hkind]), State.setFlag_answered,
      State.settle_flagged_answerBeats hs]
    rfl
  · rw [State.ungroupedRead_of_locked (by rwa [hlike.kindOf]) (by rwa [hlike.lockedFor]), State.respond_answered,
      State.settle_answered _ _ _ hs]
    rfl
  · rw [State.ungroupedRead_of_sent (by rwa [hlike.kindOf]) (by rwa [hlike.lockedFor])]
    rw [State.sendRead_plain]

/-! ### Intrusion -/

/-- The line is TRACKED and in the footprint of the OPEN owner of the HELD token (R46, R138). -/
theorem State.heldOwnerHas_iff (s : State) (l : Line) : s.heldOwnerHas l = true ↔
    s.kindOf l = .tracked ∧ ∃ c, s.token = .held c ∧ (s.ctx c).state = .opened ∧ s.inFootprint c l = true := by
  have hmem : ∀ c : CtxId, c ∈ four := by decide
  simp only [State.heldOwnerHas, State.holders, Bool.and_eq_true, decide_eq_true_eq, List.any_eq_true, List.mem_filter,
    hmem, true_and]
  exact and_congr_right fun _ => exists_congr fun c => ⟨fun ⟨h, ht⟩ => ⟨ht, h⟩, fun ⟨ht, h⟩ => ⟨h, ht⟩⟩

section
variable {s : State} {p : PortId} {a : Addr} {x : Answer} {go : State → State}

theorem State.intrude_of_blocked (h : s.kindOf (lineOf a) = .blocked) :
    s.intrude p a x go = (s.setFlag p .refused).respond p [x] := if_pos h

theorem State.intrude_of_retry (h : s.kindOf (lineOf a) ≠ .blocked)
    (hretry : s.lockedFor p (lineOf a) ∨ s.heldOwnerHas (lineOf a)) : s.intrude p a x go = s.respond p [.retry] := by
  unfold State.intrude
  simp only [if_neg h]
  split
  · rfl
  · next hlocked => rw [if_pos (hretry.resolve_left hlocked)]

theorem State.intrude_of_go (h : s.kindOf (lineOf a) ≠ .blocked) (hlocked : s.lockedFor p (lineOf a) = false)
    (howner : s.heldOwnerHas (lineOf a) = false) : s.intrude p a x go =
      go (if s.kindOf (lineOf a) = .tracked then
        s.abortAll (s.holders (lineOf a)) .invaded (some a) (some (.port p)) else s) := by
  unfold State.intrude
  simp only [if_neg h, hlocked, howner, Bool.false_eq_true, if_false]
  rfl

end

/-! ### A write outside a group, and a discarded one -/

section
variable {s : State} {p : PortId} {a : Addr} {bs : List WriteBeat} (hgood : writeGood bs = true)
include hgood

/-- A write of good parity from a context that is not OPEN is not counted (R4, R5). -/
theorem State.takeWrite_of_not_open (h : (s.ctx (s.serving p)).state ≠ .opened) :
    s.takeWrite p a bs = s.performWrite p a bs := by
  rw [State.takeWrite_eq, if_pos hgood, State.counted_of_not_open rfl h, State.countExpires_of_not_open rfl h,
    State.expire_false]

theorem State.takeWrite_of_ungrouped
    (h : (s.ctx (s.serving p)).state = .idle ∨ (s.ctx (s.serving p)).state = .committing) :
    s.takeWrite p a bs = s.ungroupedWrite p 2 a bs := by
  rw [State.takeWrite_of_not_open hgood (by rcases h with h | h <;> simp [h]), State.performWrite]
  rcases h with h | h <;> simp only [h]

theorem State.takeWrite_of_discarded
    (h : (s.ctx (s.serving p)).state = .aborting ∨ (s.ctx (s.serving p)).state = .doomed) :
    s.takeWrite p a bs = s.respond p [.done] := by
  rw [State.takeWrite_of_not_open hgood (by rcases h with h | h <;> simp [h]), State.performWrite]
  rcases h with h | h <;> simp only [h]

end

/-- Settles O25, by kind, locks and token; and by the state of the context. -/
theorem ungroupedAndDiscardedWrites : Obligations.UngroupedAndDiscardedWrites := by
  refine ⟨fun s p a bs l hfree hl hgood hstate hline => ?_, fun s p a bs hfree hs hl hgood hstate => ?_,
    State.sendWrite_eq⟩
  · subst hline
    have hlike := s.alike_answered p []
    rw [exec_memWrite_of_free hfree hl, State.takeWrite_of_ungrouped (s := s.answered p []) hgood hstate,
      State.ungroupedWrite]
    simp only [← State.heldOwnerHas_iff]
    refine ⟨fun hs hkind => ?_, fun hs hkind hretry => ?_, fun hkind hlocked howner => ?_⟩
    · rw [State.intrude_of_blocked (by rwa [hlike.kindOf]), State.respond_setFlag_answered, State.settle_flagged hs]
      rfl
    · rw [State.intrude_of_retry (by rwa [hlike.kindOf]) (by rwa [hlike.lockedFor, hlike.heldOwnerHas]),
        State.respond_answered, State.settle_answered _ _ _ hs]
      rfl
    · rw [State.intrude_of_go (by rwa [hlike.kindOf]) (by rwa [hlike.lockedFor])
        (by rw [hlike.heldOwnerHas]; simpa using howner), hlike.kindOf, hlike.holders]
  · rw [exec_memWrite_of_free hfree hl, State.takeWrite_of_discarded (s := s.answered p []) hgood hstate,
      State.respond_answered, State.settle_answered _ _ _ hs]
    rfl

/-! ### Writes of bad parity -/

theorem State.countExpires_answered (s : State) (p q : PortId) (as : List Answer) :
    (s.answered p as).countExpires q = s.countExpires q := by
  by_cases h : (s.ctx (s.serving q)).state = .opened
  · cases hm : (s.lifetimes.get (s.serving q)).mode with
    | time =>
      rw [State.countExpires, State.countExpires, State.countCycle_of_time rfl h hm,
        State.countCycle_of_time (s := s.answered p as) rfl h hm]
    | cycles =>
      rw [State.countExpires, State.countExpires, State.countCycle_of_cycles rfl h hm,
        State.countCycle_of_cycles (s := s.answered p as) rfl h hm]
      rfl
  · rw [State.countExpires_of_not_open rfl h, State.countExpires_of_not_open (s := s.answered p as) rfl h]

/-- After its abort a context has no expiry to take (R88, R126). -/
theorem State.expire_respond_takeAbort (s : State) (c : CtxId) (code : AbortCode) (cause : Option Addr)
    (party : Option Party) (p : PortId) (as : List Answer) (e : Bool) :
    ((s.takeAbort c code cause party).respond p as).expire c e = (s.takeAbort c code cause party).respond p as := by
  refine State.expire_of_not_open ?_ e
  change ((s.takeAbort c code cause party).ctx c).state ≠ .opened
  rw [State.ctx_takeAbort, if_pos rfl]
  exact Context.afterAbort_not_opened _ _

theorem State.takeWrite_of_bad {s : State} {bs : List WriteBeat} (h : writeGood bs = false) (p : PortId) (a : Addr) :
    s.takeWrite p a bs = ((s.counted p).refuseParity p a).expire (s.serving p) (s.countExpires p) := by
  rw [State.takeWrite_eq, if_neg (by simp [h])]

/-- Settles O26, by whether the context is OPEN. -/
theorem writeOfBadParity : Obligations.WriteOfBadParity := by
  refine ⟨fun s p a bs c hfree hl hbad hc => ⟨fun hs hnot => ?_, fun hopen => ?_⟩, writeGood_iff⟩
  all_goals rw [exec_memWrite_of_free hfree hl, State.takeWrite_of_bad hbad]
  · have hnot' : ((s.answered p []).ctx c).state ≠ .opened := hnot
    subst hc
    rw [State.counted_of_not_open rfl hnot', State.countExpires_of_not_open rfl hnot', State.expire_false,
      State.refuseParity_not_open hnot, State.settle_flagged hs]
    rfl
  · have hopen' : (((s.answered p []).counted p).ctx c).state = .opened := by simpa using hopen
    rw [State.refuseParity_open (c := c) (by simpa using hc) hopen', State.serving_answered, hc,
      State.expire_respond_takeAbort]
    rfl

end Sys2Proof.Machine
end

section
/-! The locked cycles (R46, R47, R149, R150, R151, R167). -/

namespace Sys2Proof.Machine

/-! ### LOCK-READ -/

theorem State.lockedRead_of_blocked {t : State} {a : Addr} (h : t.kindOf (lineOf a) = .blocked) (p : PortId)
    (en : Lanes) : t.lockedRead p a en = (t.setFlag p .refused).respond p [.readError] :=
  State.intrude_of_blocked h

theorem State.lockedRead_of_retry {t : State} {p : PortId} {a : Addr} (h : t.kindOf (lineOf a) ≠ .blocked)
    (hretry : t.lockedFor p (lineOf a) ∨ t.heldOwnerHas (lineOf a)) (en : Lanes) :
    t.lockedRead p a en = t.respond p [.retry] := State.intrude_of_retry h hretry

/-- A LOCK-READ let through opens the pair on its line and requests its beat (R150, R162). -/
theorem State.lockedRead_of_go {t : State} {p : PortId} {a : Addr} (h : t.kindOf (lineOf a) ≠ .blocked)
    (hlocked : t.lockedFor p (lineOf a) = false) (howner : t.heldOwnerHas (lineOf a) = false) (en : Lanes) :
    t.lockedRead p a en = (((if t.kindOf (lineOf a) = .tracked then
      t.abortAll (t.holders (lineOf a)) .invaded (some a) (some (.port p)) else t).setPair p (some (lineOf a))).setCycle p
        (some ⟨3, a, 0, .reading [⟨en, 0, 0, false⟩] none⟩)).setReq p (some ⟨⟨false, a, [⟨en, 0⟩]⟩, false⟩) :=
  State.intrude_of_go h hlocked howner

/-- A locked cycle opens no group. -/
theorem State.opened_of_lockedRead {t : State} {p : PortId} {a : Addr} {en : Lanes} {c : CtxId}
    (h : ((t.lockedRead p a en).ctx c).state = .opened) : (t.ctx c).state = .opened := by
  by_cases hkind : t.kindOf (lineOf a) = .blocked
  · rwa [State.lockedRead_of_blocked hkind] at h
  · by_cases hretry : t.lockedFor p (lineOf a) = true ∨ t.heldOwnerHas (lineOf a) = true
    · rwa [State.lockedRead_of_retry hkind hretry] at h
    · have hctx : ∀ (u : State) (l : Option Line) (y : Option Cycle) (r : Option Request),
          (((u.setPair p l).setCycle p y).setReq p r).ctx c = u.ctx c := fun _ _ _ _ => rfl
      obtain ⟨hlocked, howner⟩ := not_or.mp hretry
      rw [State.lockedRead_of_go hkind (by simpa using hlocked) (by simpa using howner), hctx] at h
      split at h
      · exact (t.abortAll_shrinks ..).opened c h
      · exact h

/-- A LOCK-READ from a context that is not OPEN is not counted and aborts no group of its own (R5, R150). -/
theorem State.takeLockRead_of_not_open {s : State} {p : PortId} (h : (s.ctx (s.serving p)).state ≠ .opened) (a : Addr)
    (en : Lanes) : s.takeLockRead p a en = s.lockedRead p a en := by
  rw [State.takeLockRead_eq, State.counted_of_not_open rfl h, State.countExpires_of_not_open rfl h,
    State.abort_not_open h, State.expire_false]

/-- A LOCK-READ from an OPEN context aborts its own group with LOCKED (R150); no expiry is left to take. -/
theorem State.takeLockRead_of_open {s : State} {p : PortId} {c : CtxId} (hc : s.serving p = c)
    (h : (s.ctx c).state = .opened) (a : Addr) (en : Lanes) : s.takeLockRead p a en =
      ((s.counted p).takeAbort c .locked (some a) none).lockedRead p a en := by
  subst hc
  rw [State.takeLockRead_eq, State.abort_open (by simpa using h)]
  refine State.expire_of_not_open (fun hopen => ?_) _
  have := State.opened_of_lockedRead hopen
  rw [State.ctx_takeAbort, if_pos rfl] at this
  exact Context.afterAbort_not_opened _ _ this

/-- Settles O27: the locked cycle itself, and what comes before it by the state of the context. -/
theorem lockReads : Obligations.LockReads := by
  simp only [Obligations.LockReads, ← State.heldOwnerHas_iff]
  refine ⟨fun s p a en l hfree hl hnot hline => ?_, fun s p a en c hfree hl hc hopen => ?_,
    fun t p a en l hline => ?_⟩
  · subst hline
    have hlike := s.alike_answered p []
    rw [exec_lockRead_of_free hfree hl, State.takeLockRead_of_not_open (s := s.answered p []) hnot]
    refine ⟨fun hs hkind => ?_, fun hs hkind hretry => ?_, fun hkind hlocked howner => ?_⟩
    · rw [State.lockedRead_of_blocked (by rwa [hlike.kindOf]), State.respond_setFlag_answered, State.settle_flagged hs]
      rfl
    · rw [State.lockedRead_of_retry (by rwa [hlike.kindOf]) (by rwa [hlike.lockedFor, hlike.heldOwnerHas]),
        State.respond_answered, State.settle_answered _ _ _ hs]
      rfl
    · rw [State.lockedRead_of_go (by rwa [hlike.kindOf]) (by rwa [hlike.lockedFor])
        (by rw [hlike.heldOwnerHas]; simpa using howner), hlike.kindOf, hlike.holders]
  · rw [exec_lockRead_of_free hfree hl, State.takeLockRead_of_open (s := s.answered p []) hc hopen]
  · subst hline
    exact ⟨fun hkind => State.lockedRead_of_blocked hkind p en, fun hkind hretry => State.lockedRead_of_retry hkind hretry en,
      fun hkind hlocked howner => State.lockedRead_of_go hkind hlocked (by simpa using howner) en⟩

/-! ### LOCK-WRITE -/

theorem exec_lockWrite_of_takes {s : State} {p : PortId} (h : s.takesCycle p) (a : Addr) (b : WriteBeat) :
    exec (.lockWrite p a b) s = .next ((s.answered p []).lockWriteCycle p a b).settle := by
  change Host.Outcome.next _ = _
  rw [State.cycle, if_pos h]
  rfl

theorem exec_lockWrite_of_ending {s : State} {p : PortId} {a : Addr} (h : s.takesCycle p) (hl : legalBurst a 1)
    (hpair : (s.port p).pair = some (lineOf a)) (b : WriteBeat) :
    exec (.lockWrite p a b) s = .next ((s.answered p []).takeEndingWrite p a b).settle := by
  rw [exec_lockWrite_of_takes h, State.lockWriteCycle, if_pos hl, if_pos (by rw [State.pair_answered, hpair])]

theorem State.setPair_self {s : State} {p : PortId} {l : Option Line} (h : (s.port p).pair = l) : s.setPair p l = s := by
  have hsame : s.setPair p l = s.setPort p (s.port p) := by
    subst h
    rfl
  rw [hsame]
  simp [State.setPort, State.port]

/-- An ending LOCK-WRITE of good parity (R47, R151, R167). -/
theorem State.takeEndingWrite_of_good {s : State} {b : WriteBeat} (h : writeGood [b] = true) (p : PortId) (a : Addr) :
    s.takeEndingWrite p a b = (((((s.counted p).setPair p none).abortAll ((s.counted p).holders (lineOf a)) .invaded
      (some a) (some (.port p))).setCycle p (some ⟨4, a, 0, .writing [b]⟩)).setReq p
        (some ⟨⟨true, a, [⟨b.en, maskLanes b.en b.data⟩]⟩, true⟩)).expire (s.serving p) (s.countExpires p) := by
  rw [State.takeEndingWrite_eq, if_pos h]
  rfl

/-- A stray LOCK-WRITE of good parity (R151). -/
theorem State.takeStrayWrite_of_good {s : State} {b : WriteBeat} (h : writeGood [b] = true) (p : PortId) (a : Addr) :
    s.takeStrayWrite p a b =
      ((s.counted p).ungroupedWrite p 4 a [b]).expire (s.serving p) (s.countExpires p) := by
  rw [State.takeStrayWrite_eq, if_pos h]

/-- A LOCK-WRITE of bad parity that ends a pair or finds none is refused, and no pair is left (R149, R151). -/
theorem exec_lockWrite_of_bad {s : State} {p : PortId} {a : Addr} {b : WriteBeat} (h : s.takesCycle p)
    (hl : legalBurst a 1) (hpair : (s.port p).pair = none ∨ (s.port p).pair = some (lineOf a))
    (hbad : writeGood [b] = false) : exec (.lockWrite p a b) s =
      .next (((((s.answered p []).counted p).setPair p none).refuseParity p a).expire (s.serving p)
        (s.countExpires p)).settle := by
  rcases hpair with hnone | hending
  · have hfree : s.free p := (s.free_iff p).mpr ⟨h, hnone⟩
    have hpair : (((s.answered p []).counted p).port p).pair = none := by
      rw [State.port_counted]
      exact State.pair_none_of_free hfree
    rw [exec_lockWrite_of_free hfree hl, State.takeStrayWrite_eq, if_neg (by simp [hbad]), State.setPair_self hpair,
      State.countExpires_answered, State.serving_answered]
  · rw [exec_lockWrite_of_ending h hl hending, State.takeEndingWrite_eq, if_neg (by simp [hbad]),
      State.countExpires_answered, State.serving_answered]

/-- Settles O28: the ending write, the stray one by kind, locks and token, and bad parity by the state of the context. -/
theorem lockWrites : Obligations.LockWrites := by
  simp only [Obligations.LockWrites, ← State.heldOwnerHas_iff]
  refine ⟨fun s p a b c t htakes hl hpair hgood hc ht => ?_, fun s t p a b c l hfree hl hgood hc hline ht => ?_,
    fun s t p a b c htakes hl hpair hbad hc ht => ?_⟩
  · rw [exec_lockWrite_of_ending htakes hl hpair, State.takeEndingWrite_of_good hgood, ← ht, State.serving_answered, hc,
      State.countExpires_answered]
    rfl
  · subst hline ht
    have hlike := s.alike_begun p
    rw [exec_lockWrite_of_free hfree hl, State.takeStrayWrite_of_good hgood, State.serving_answered, hc,
      State.countExpires_answered, State.ungroupedWrite]
    refine ⟨fun hkind => ?_, fun hkind hretry => ?_, fun hkind hlocked howner => ?_⟩
    · rw [State.intrude_of_blocked (by rwa [hlike.kindOf])]
      rfl
    · rw [State.intrude_of_retry (by rwa [hlike.kindOf]) (by rwa [hlike.lockedFor, hlike.heldOwnerHas])]
      rfl
    · rw [State.intrude_of_go (by rwa [hlike.kindOf]) (by rwa [hlike.lockedFor])
        (by rw [hlike.heldOwnerHas]; simpa using howner), hlike.kindOf, hlike.holders]
  · rw [exec_lockWrite_of_bad htakes hl hpair hbad, hc]
    have hserving : (((s.answered p []).counted p).setPair p none).serving p = c := by
      refine (State.serving_congr (s := (s.answered p []).counted p) rfl rfl p).trans ?_
      rw [State.serving_counted]
      exact hc
    have hstate : ((((s.answered p []).counted p).setPair p none).ctx c).state = (s.ctx c).state :=
      (s.alike_begun p).state c
    refine ⟨fun hnot => ?_, fun hopen => ?_⟩
    · rw [State.countExpires_of_not_open hc hnot, State.expire_false, State.refuseParity, hserving, ← ht,
        State.abort_not_open (by rw [ht]; exact hstate ▸ hnot)]
      rfl
    · rw [State.refuseParity_open hserving (hstate.trans hopen), ← ht, State.expire_respond_takeAbort]
      rfl

end Sys2Proof.Machine
end

section
/-! Malformed cycles (R147), and the break of a pair by other cycles of its port (R152, R165). -/

namespace Sys2Proof.Machine

/-! ### Malformed cycles -/

/-- The conditions of R147, kind by kind. -/
theorem malformed_iff (r : RawCycle) : malformed r = true ↔ r.kind ≠ 0 ∧
    (r.kind = 7 ∨ r.addr.toNat % (4 * 2 ^ r.len.toNat) ≠ 0 ∨ ((r.kind = 3 ∨ r.kind = 4) ∧ r.len ≠ 0) ∨
      (r.kind = 5 ∧ malformedMark readMarkCodes r) ∨ (r.kind = 6 ∧ malformedMark writeMarkCodes r)) := by
  unfold malformed beatsOf
  split_ifs with h0 h7 halign hlocked h5 h6
  · exact iff_of_false (by simp) fun h => h.1 h0
  · exact iff_of_true rfl ⟨h0, .inl h7⟩
  · exact iff_of_true rfl ⟨h0, .inr (.inl halign)⟩
  · rcases hlocked with h | h <;> simp [h, of_not_not halign]
  · simp [h5, of_not_not halign]
  · simp [h6, of_not_not halign]
  · exact iff_of_false (by simp) fun ⟨_, h⟩ => by tauto

theorem malformed_iff_fields (r : RawCycle) : malformed r = true ↔ r.kind ≠ 0 ∧
    (r.kind = 7 ∨ r.addr.toNat % (4 * 2 ^ r.len.toNat) ≠ 0 ∨ ((r.kind = 3 ∨ r.kind = 4) ∧ r.len ≠ 0) ∨
     ((r.kind = 5 ∨ r.kind = 6) ∧ (r.len ≠ 0 ∨ (r.beat 0).en ≠ 0xF ∨ r.addr.extractLsb' 22 6 ≠ 0 ∨
       r.addr.extractLsb' 0 2 ≠ 0)) ∨
     (r.kind = 5 ∧ (r.addr.extractLsb' 18 4).toNat ∉ [1, 2, 3, 4]) ∨
     (r.kind = 6 ∧ (r.addr.extractLsb' 18 4).toNat ∉ [9, 10, 11])) := by
  rw [malformed_iff, malformedMark_iff, malformedMark_iff]
  refine and_congr_right fun _ => or_congr_right (or_congr_right (or_congr_right ?_))
  change _ ∧ (_ ∨ _ ∨ _ ∨ _ ∨ (r.addr.extractLsb' 18 4).toNat ∉ [1, 2, 3, 4]) ∨
    _ ∧ (_ ∨ _ ∨ _ ∨ _ ∨ (r.addr.extractLsb' 18 4).toNat ∉ [9, 10, 11]) ↔ _
  tauto

theorem State.malformedTaken_of_read {s : State} {p : PortId} {r : RawCycle}
    (hk : r.kind = 1 ∨ r.kind = 3 ∨ r.kind = 5) (hpair : (s.port p).pair = none) : s.malformedTaken p r =
      (s.setFlag p .refused).answerBeats p r.kind r.addr (List.replicate (2 ^ r.len.toNat) .readError) := by
  rw [State.malformedTaken, State.breakPair_of_no_pair hpair]
  refine if_pos ?_
  rcases hk with hk | hk | hk <;> simp [readKind, hk]

theorem State.malformedTaken_of_other {s : State} {p : PortId} {r : RawCycle}
    (hk : ¬ (r.kind = 1 ∨ r.kind = 3 ∨ r.kind = 5)) (hpair : (s.port p).pair = none) :
    s.malformedTaken p r = (s.setFlag p .refused).respond p [.error] := by
  rw [State.malformedTaken, State.breakPair_of_no_pair hpair]
  exact if_neg (by simpa [readKind, or_assoc] using hk)

/-- A malformed cycle of a kind that is no write is taken whole (R145, R147). -/
theorem exec_malformed_of_read {r : RawCycle} (hmal : malformed r = true)
    (hk : ¬ (r.kind = 2 ∨ r.kind = 4 ∨ r.kind = 6)) (p : PortId) (s : State) :
    exec (.malformedCycle p r) s = .next (s.cycle p fun t => t.malformedTaken p r) := by
  rw [exec_malformedCycle_of_read ((malformed_iff r).mp hmal).1 hk]
  exact congrArg _ (State.cycle_congr (State.takeRaw_of_decode (decodeCycle_of_malformed hmal p) _))

/-- A malformed cycle of a write kind is taken after its last beat (R145, R147). -/
theorem exec_malformed_of_write {r : RawCycle} (hmal : malformed r = true) (hk : r.kind = 2 ∨ r.kind = 4 ∨ r.kind = 6)
    (hbeats : 2 ^ r.len.toNat ≤ r.beats.length) {p : PortId} {s : State} (hcycle : (s.port p).cycle = none) :
    exec (.malformedCycle p r) s =
      .next (s.cycle p fun t => t.malformedTaken p { r with beats := r.beats.take (2 ^ r.len.toNat) }) := by
  have hmal' : malformed { r with beats := r.beats.take (2 ^ r.len.toNat) } = true := by
    refine (malformed_congr (r := r) ?_ ?_ ?_ ?_).trans hmal
    · rfl
    · rfl
    · rfl
    · exact beat_zero_take r.beats r.kind r.addr r.len r.len.toNat
  rw [exec_malformedCycle_of_write hk, State.arrive_eq_cycle hcycle hbeats]
  exact congrArg _ (State.cycle_congr (State.takeRaw_of_decode (decodeCycle_of_malformed hmal' p) _))

/-- Settles O29: the conditions, and the refusal by the direction of the kind. -/
theorem malformedCyclesAreRefused : Obligations.MalformedCyclesAreRefused := by
  refine ⟨malformed_iff_fields, fun s p raw hmal hfree hs => ⟨fun hk => ?_, fun hk hbeats => ?_, fun hk => ?_⟩,
    legalBurst_iff⟩
  all_goals have hpair := State.pair_none_of_free hfree
  · have hnot : ¬ (raw.kind = 2 ∨ raw.kind = 4 ∨ raw.kind = 6) := by
      rcases hk with hk | hk | hk <;> simp [hk]
    rw [exec_malformed_of_read hmal hnot, State.cycle_of_free hfree, State.malformedTaken_of_read hk hpair,
      State.setFlag_answered, State.settle_flagged_answerBeats hs]
    rfl
  · have hnot : ¬ (raw.kind = 1 ∨ raw.kind = 3 ∨ raw.kind = 5) := by
      rcases hk with hk | hk | hk <;> simp [hk]
    rw [exec_malformed_of_write hmal hk hbeats (State.cycle_none_of_free hfree), State.cycle_of_free hfree,
      State.malformedTaken_of_other 
        (r := ⟨raw.kind, raw.addr, raw.len, raw.beats.take (2 ^ raw.len.toNat)⟩) hnot hpair, State.respond_setFlag_answered,
      State.settle_flagged hs]
    rfl
  · rw [exec_malformed_of_read hmal (by simp [hk]), State.cycle_of_free hfree,
      State.malformedTaken_of_other (by simp [hk]) hpair, State.respond_setFlag_answered, State.settle_flagged hs]
    rfl

/-! ### The break of a pair -/

/-- A port that is driven no answer, in a part out of reset, with no context's held CLOSE: settling leaves it so. -/
structure State.Silent (p : PortId) (t : State) : Prop where
  answers : (t.port p).answers = []
  held : ∀ c, (t.ctx c).held ≠ some p
  rst : t.rst = false

theorem Context.held_afterAbort_ne {x : Context} {p : PortId} (h : x.held ≠ some p) (code : AbortCode) :
    (x.afterAbort code).held ≠ some p := by
  unfold Context.afterAbort
  simp only
  split_ifs
  · exact h
  · simp [Context.toIdle_eq]
  · exact h

theorem State.Silent.abort {p : PortId} {t : State} (h : t.Silent p) (c : CtxId) (code : AbortCode)
    (cause : Option Addr) (party : Option Party) : (t.abort c code cause party).Silent p := by
  refine ⟨?_, fun d => ?_, by simpa using h.rst⟩
  · rw [State.port_abort]
    exact h.answers
  · by_cases hopen : (t.ctx c).state = .opened
    · rw [State.abort_open hopen, State.ctx_takeAbort]
      split
      · exact Context.held_afterAbort_ne (h.held c) code
      · exact h.held d
    · rw [State.abort_not_open hopen]
      exact h.held d

theorem State.Silent.abortAll {p : PortId} {t : State} (h : t.Silent p) (cs : List CtxId) (code : AbortCode)
    (cause : Option Addr) (party : Option Party) : (t.abortAll cs code cause party).Silent p :=
  State.abortAll_invariant (State.Silent p) cs code cause party (fun _ c _ ht => ht.abort c code cause party)
    (fun _ _ ht => ⟨ht.answers, ht.held, ht.rst⟩) t h

theorem State.settleKeeps_silent (p : PortId) : State.SettleKeeps (State.Silent p) where
  start _ _ _ _ _ h _ _ _ _ := ⟨h.answers, h.held, h.rst⟩
  commitDone t j rest n h _ _ := by
    have hport : ((t.setJobs rest).commitFinish j.ctx n).port p = ((t.setJobs rest).commitAnswered j.ctx n).port p := by
      rw [State.commitFinish_eq, State.drainTest_eq]
      rfl
    refine ⟨?_, fun d => ?_, by simpa using h.rst⟩
    · rw [hport, State.port_commitAnswered]
      simpa [h.held j.ctx] using h.answers
    · rw [State.ctx_commitFinish]
      split
      · simp [Context.toIdle_eq]
      · exact h.held d
  recordDone t j rest h _ _ := by
    have hport : ((t.setJobs rest).recordFinish j.ctx true false).port p =
        ((t.setJobs rest).recordAnswered j.ctx true false).port p := by
      rw [State.recordFinish_eq, State.drainTest_eq]
      rfl
    refine ⟨?_, fun d => ?_, by simpa using h.rst⟩
    · rw [hport, State.port_recordAnswered]
      simpa [h.held j.ctx] using h.answers
    · rw [State.ctx_recordFinish]
      split
      · simp [Context.held_afterRecord]
      · exact h.held d
  moved _ h := ⟨h.answers, h.held, h.rst⟩
  grantPort _ _ _ h _ _ := ⟨h.answers, h.held, h.rst⟩
  grantCommit _ _ _ _ _ _ _ h _ _ := ⟨h.answers, h.held, h.rst⟩
  grantRecord _ _ _ _ _ _ h _ _ _ := by
    rw [State.invade]
    refine State.Silent.abortAll ?_ _ _ _ _
    exact ⟨h.answers, h.held, h.rst⟩

theorem State.answered_self {s : State} {p : PortId} {as : List Answer} (h : (s.port p).answers = as) :
    s.answered p as = s := by
  have hsame : s.answered p as = s.setPort p (s.port p) := by
    subst h
    rfl
  rw [hsame]
  simp [State.setPort, State.port]

/-- A port that takes cycles carries no held CLOSE (R155). -/
theorem State.held_ne_of_takes {s : State} {p : PortId} (hs : s.takesCycle p) (hheld : s.heldMatch) (c : CtxId) :
    (s.ctx c).held ≠ some p := fun h => by
  obtain ⟨-, hcycle⟩ := (s.heldMatch_iff.mp hheld) c p h
  simp [((s.takesCycle_iff p).mp hs).2.2] at hcycle

/-- A cycle just begun with its pair broken: REFUSED is set, and what follows a claim follows (R152, R165). -/
theorem State.breakPair_answered {s : State} {p : PortId} {l : Line} (h : (s.port p).pair = some l) :
    (s.answered p []).breakPair p = (s.setPort p
      { s.port p with pair := none, flags := (s.port p).flags ||| 4, answers := [] }).settle := by
  rw [State.breakPair, if_pos (by rw [State.pair_answered, h]; rfl)]
  have hword : Flag.refused.word = 4 := rfl
  congr 1
  simp [State.setFlag, State.setPair, State.answered, State.setPort, State.port, hword]

/-- The break of its pair leaves a port free, with no answers (R152). -/
theorem State.free_breakPair {s : State} {p : PortId} {l : Line} (hs : s.takesCycle p)
    (hpair : (s.port p).pair = some l) (hheld : s.heldMatch) :
    ((s.answered p []).breakPair p).free p ∧ ((s.answered p []).breakPair p).answered p [] =
      (s.answered p []).breakPair p := by
  obtain ⟨hrst, hpin, hcycle⟩ := (s.takesCycle_iff p).mp hs
  rw [State.breakPair_answered hpair]
  generalize hu : s.setPort p { s.port p with pair := none, flags := (s.port p).flags ||| 4, answers := [] } = u
  have hself : u.port p = { s.port p with pair := none, flags := (s.port p).flags ||| 4, answers := [] } := by
    rw [← hu, State.port_setPort, if_pos rfl]
  have hsilent : u.Silent p := by
    refine ⟨by rw [hself], fun c => ?_, ?_⟩
    · rw [← hu]
      exact State.held_ne_of_takes hs hheld c
    · rw [← hu]
      exact hrst
  have hkept := State.settle_keepsPorts u
  have hsettled := State.settle_keeps (State.settleKeeps_silent p) hsilent
  refine ⟨(State.free_iff _ p).mpr ⟨(State.takesCycle_iff _ p).mpr ⟨hsettled.rst, ?_, hkept.cycle p ?_⟩, ?_⟩, ?_⟩
  · rw [hkept.resetPin, hself]
    exact hpin
  · rw [hself]
    exact hcycle
  · rw [hkept.pair, hself]
  · exact State.answered_self hsettled.answers

/-- What a cycle does depends on the state with the pair of its port broken (R152). -/
def State.BreaksFirst (p : PortId) (f : State → State) : Prop :=
  ∀ u v : State, u.breakPair p = v.breakPair p → f u = f v

/-- A cycle that breaks its port's pair first goes on as if none had been open (R152). -/
theorem State.cycle_breaks {s : State} {p : PortId} {l : Line} (hs : s.takesCycle p)
    (hpair : (s.port p).pair = some l) (hheld : s.heldMatch) {f : State → State} (hf : State.BreaksFirst p f) :
    s.cycle p f = ((s.answered p []).breakPair p).cycle p f := by
  obtain ⟨hfree, hsame⟩ := State.free_breakPair hs hpair hheld
  have hnone := State.breakPair_of_no_pair (State.pair_none_of_free hfree)
  rw [hsame] at hnone
  rw [State.cycle_of_free hfree, hsame, State.cycle, if_pos hs, State.beginCycle_eq_answered]
  exact congrArg State.settle (hf _ _ hnone.symm)

theorem State.breaksFirst_comp (p : PortId) (g : State → State) : State.BreaksFirst p fun u => g (u.breakPair p) :=
  fun _ _ h => congrArg g h

/-- Every cycle taken whole but a LOCK-WRITE breaks its port's pair before all else. -/
theorem State.breaksFirst_takeCycle {i : Instr} {p : PortId} {r : RawCycle} (hpins : i.pins = some (p, r))
    (hwhole : takenWhole i = true) (hlock : ∀ q a b, i ≠ .lockWrite q a b) :
    State.BreaksFirst p fun u => u.takeCycle i := by
  cases i with
  | memWrite | malformedCycle => exact absurd hwhole nofun
  | lockWrite q a b => exact absurd rfl (hlock q a b)
  | portReset | partReset | qreqAsserted | qreqNegated | tick | lifetimeExpiry | windowExpiry | storageFault | grant
  | memoryBeatAnswer | jobStart | portResetRelease | partResetRelease | tickPinFall => exact absurd hpins nofun
  | markOpen q arg =>
    obtain ⟨rfl, rfl⟩ := Prod.mk.inj (Option.some.inj hpins)
    exact State.breaksFirst_comp q fun u => u.takeOpen q arg
  | markClose q arg =>
    obtain ⟨rfl, rfl⟩ := Prod.mk.inj (Option.some.inj hpins)
    exact State.breaksFirst_comp q fun u => u.takeClose q arg
  | markStatus q arg =>
    obtain ⟨rfl, rfl⟩ := Prod.mk.inj (Option.some.inj hpins)
    exact State.breaksFirst_comp q fun u => u.takeStatus q arg
  | markGetCfg q item =>
    obtain ⟨rfl, rfl⟩ := Prod.mk.inj (Option.some.inj hpins)
    exact State.breaksFirst_comp q fun u => u.takeGetCfg q item
  | markDrop q arg data par =>
    obtain ⟨rfl, rfl⟩ := Prod.mk.inj (Option.some.inj hpins)
    exact fun u v h => by simp only [State.takeCycle, State.dropCycle, State.writeMark, h]
  | markRecAddr q arg data par =>
    obtain ⟨rfl, rfl⟩ := Prod.mk.inj (Option.some.inj hpins)
    exact fun u v h => by simp only [State.takeCycle, State.recAddrCycle, State.writeMark, h]
  | setCfgRegion | setCfgPairing | setCfgLifetime | setCfgSlotCaps | setCfgEscalation | setCfgTickSource
  | setCfgFaultMasks | setCfgUndefinedItem =>
    obtain ⟨rfl, rfl⟩ := Prod.mk.inj (Option.some.inj hpins)
    exact fun u v h => by simp only [State.takeCycle, State.setCfgCycle, State.writeMark, h]
  | memRead q a ens =>
    obtain ⟨rfl, rfl⟩ := Prod.mk.inj (Option.some.inj hpins)
    exact fun u v h => by simp only [State.takeCycle, State.readCycle, h]
  | lockRead q a en =>
    obtain ⟨rfl, rfl⟩ := Prod.mk.inj (Option.some.inj hpins)
    exact fun u v h => by simp only [State.takeCycle, State.lockReadCycle, h]

theorem State.breaksFirst_writeCycle (p : PortId) (a : Addr) (bs : List WriteBeat) :
    State.BreaksFirst p fun u => u.writeCycle p a bs := fun u v h => by
  simp only [State.writeCycle, h]

theorem State.breaksFirst_malformedTaken (p : PortId) (r : RawCycle) :
    State.BreaksFirst p fun u => u.malformedTaken p r :=
  State.breaksFirst_comp p fun u => u.refuseMalformed p r.kind r.addr (beatsOf r.len)

/-- A LOCK-WRITE that does not end the pair of its port breaks it first (R151, R152). -/
def State.brokenLockWrite (s : State) (p : PortId) (a : Addr) (b : WriteBeat) : State :=
  if legalBurst a 1 then (s.breakPair p).takeStrayWrite p a b else (s.breakPair p).refuseMalformed p 4 a 1

theorem exec_lockWrite_of_broken {s : State} {p : PortId} {a : Addr}
    (h : (s.port p).pair ≠ some (lineOf a) ∨ legalBurst a 1 = false) (b : WriteBeat) :
    exec (.lockWrite p a b) s = .next (s.cycle p fun u => u.brokenLockWrite p a b) := by
  refine congrArg Host.Outcome.next (State.cycle_congr ?_)
  unfold State.lockWriteCycle State.brokenLockWrite
  split
  · next hl => rw [if_neg (by rw [State.beginCycle_eq_answered, State.pair_answered]; exact h.resolve_right (by simp [hl]))]
  · rfl

theorem exec_memWrite_of_full {s : State} {p : PortId} (h : (s.port p).cycle = none) {n : BitVec 2}
    {bs : List WriteBeat} (hbs : 2 ^ n.toNat ≤ bs.length) (a : Addr) : exec (.memWrite p a ⟨n, bs⟩) s =
      .next (s.cycle p fun u => u.writeCycle p a (bs.take (2 ^ n.toNat))) := by
  rw [exec_memWrite, State.arrive_eq_cycle h hbs]

/-- Settles O30: each cycle breaks its port's pair before all else. -/
theorem otherCyclesBreakThePair : Obligations.OtherCyclesBreakThePair := by
  intro s t p l hs hpair hheld ht
  rw [← State.breakPair_answered hpair] at ht
  have hfree := (State.free_breakPair hs hpair hheld).1
  rw [← ht] at hfree
  have hcycle : ∀ f, State.BreaksFirst p f → s.cycle p f = t.cycle p f :=
    fun f hf => ht ▸ State.cycle_breaks hs hpair hheld hf
  have hnone := ((s.takesCycle_iff p).mp hs).2.2
  have hnone' := State.cycle_none_of_free hfree
  have hwhole : ∀ (i : Instr) (r : RawCycle), i.pins = some (p, r) → takenWhole i = true →
      (∀ q a b, i ≠ .lockWrite q a b) → exec i s = exec i t := fun i r hpins hi hlock => by
    rw [exec_eq_takeCycle hpins hi, exec_eq_takeCycle hpins hi, hcycle _ (State.breaksFirst_takeCycle hpins hi hlock)]
  refine ⟨fun arg => ⟨hwhole _ _ rfl rfl nofun, hwhole _ _ rfl rfl nofun, hwhole _ _ rfl rfl nofun,
    hwhole _ _ rfl rfl nofun⟩, fun arg data par => ⟨hwhole _ _ rfl rfl nofun, hwhole _ _ rfl rfl nofun,
    hwhole _ _ rfl rfl nofun⟩, fun k c data par => ⟨hwhole _ _ rfl rfl nofun, hwhole _ _ rfl rfl nofun,
    hwhole _ _ rfl rfl nofun, hwhole _ _ rfl rfl nofun, hwhole _ _ rfl rfl nofun, hwhole _ _ rfl rfl nofun,
    hwhole _ _ rfl rfl nofun⟩, fun a ens => hwhole _ _ rfl rfl nofun, fun a n bs hbeats => ?write,
    fun a en => hwhole _ _ rfl rfl nofun, fun a b hline => ?lock, fun raw hmal hbeats => ?raw⟩
  case write =>
    rw [exec_memWrite_of_full hnone hbeats, exec_memWrite_of_full hnone' hbeats,
      hcycle _ (State.breaksFirst_writeCycle p a _)]
  case lock =>
    have hother : (s.port p).pair ≠ some (lineOf a) ∨ legalBurst a 1 = false :=
      hline.imp_left fun h h' => h (Option.some.inj (h'.symm.trans hpair))
    have hother' : (t.port p).pair ≠ some (lineOf a) ∨ legalBurst a 1 = false :=
      .inl (by rw [((t.free_iff p).mp hfree).2]; nofun)
    rw [exec_lockWrite_of_broken hother, exec_lockWrite_of_broken hother']
    exact congrArg _ (hcycle _ fun u v h => by simp only [State.brokenLockWrite, h])
  case raw =>
    by_cases hk : raw.kind = 2 ∨ raw.kind = 4 ∨ raw.kind = 6
    · rw [exec_malformed_of_write hmal hk (hbeats hk) hnone, exec_malformed_of_write hmal hk (hbeats hk) hnone',
        hcycle _ (State.breaksFirst_malformedTaken p _)]
    · rw [exec_malformed_of_read hmal hk, exec_malformed_of_read hmal hk,
        hcycle _ (State.breaksFirst_malformedTaken p _)]

end Sys2Proof.Machine
end

section
/-! Group cycles to lines that are not TRACKED (R36, R39, R43). -/

namespace Sys2Proof.Machine

/-! ### Cycles of a group -/

section
variable {s : State} {p : PortId} {c : CtxId} (hfree : s.free p) (hc : s.serving p = c)
  (hopen : (s.ctx c).state = .opened)
include hfree hc hopen

/-- A read of an OPEN group, counted, with its expiry after it (R5, R39, R126). -/
theorem exec_memRead_of_open {a : Addr} {ens : List Lanes} (hl : legalBurst a ens.length) :
    exec (.memRead p a ens) s =
      .next ((((s.answered p []).counted p).groupRead c p a ens).expire c (s.countExpires p)).settle := by
  subst hc
  rw [exec_memRead_of_free hfree hl, State.takeRead_eq, if_pos (by exact hopen), State.countExpires_answered,
    State.serving_answered]

/-- A write of good parity of an OPEN group (R4, R5, R43, R126). -/
theorem exec_memWrite_of_open {a : Addr} {bs : List WriteBeat} (hl : legalBurst a bs.length)
    (hgood : writeGood bs = true) : exec (.memWrite p a ⟨lenCode bs.length, bs⟩) s =
      .next ((((s.answered p []).counted p).groupWrite c p a bs).expire c (s.countExpires p)).settle := by
  subst hc
  have hopen' : (((s.answered p []).counted p).ctx (s.serving p)).state = .opened := by simpa using hopen
  have hperform : ((s.answered p []).counted p).performWrite p a bs =
      ((s.answered p []).counted p).groupWrite (s.serving p) p a bs := by
    rw [State.performWrite, State.serving_counted, State.serving_answered]
    simp only [hopen']
  rw [exec_memWrite_of_free hfree hl, State.takeWrite_eq, if_pos hgood, State.countExpires_answered,
    State.serving_answered, hperform]

end

section
variable {t : State} {c : CtxId} {p : PortId} {a : Addr}

theorem State.groupRead_of_locked (h : t.lockedFor p (lineOf a)) (ens : List Lanes) :
    t.groupRead c p a ens = t.respond p [.retry] := if_pos h

theorem State.groupWrite_of_locked (h : t.lockedFor p (lineOf a)) (bs : List WriteBeat) :
    t.groupWrite c p a bs = t.respond p [.retry] := if_pos h

variable (h : t.lockedFor p (lineOf a) = false)
include h

theorem State.groupRead_of_pass (hk : t.kindOf (lineOf a) = .pass) (ens : List Lanes) :
    t.groupRead c p a ens = t.sendRead p 1 a (plainBeats ens) (some c) := by
  unfold State.groupRead
  simp only [h, hk, Bool.false_eq_true, if_false]

theorem State.groupRead_of_blocked (hk : t.kindOf (lineOf a) = .blocked) (ens : List Lanes) :
    t.groupRead c p a ens =
      (t.abort c .blocked (some a)).answerBeats p 1 a (List.replicate ens.length .readError) := by
  unfold State.groupRead
  simp only [h, hk, Bool.false_eq_true, if_false]

theorem State.groupWrite_of_pass (hk : t.kindOf (lineOf a) = .pass) (bs : List WriteBeat) :
    t.groupWrite c p a bs = if (t.ctx c).escape then t.sendWrite p 2 a bs
      else (t.abort c .untracked (some a)).respond p [.done] := by
  unfold State.groupWrite
  simp only [h, hk, Bool.false_eq_true, if_false]

theorem State.groupWrite_of_blocked (hk : t.kindOf (lineOf a) = .blocked) (bs : List WriteBeat) :
    t.groupWrite c p a bs = (t.abort c .blocked (some a)).respond p [.error] := by
  unfold State.groupWrite
  simp only [h, hk, Bool.false_eq_true, if_false]

theorem State.groupWrite_of_tracked (hk : t.kindOf (lineOf a) = .tracked) (bs : List WriteBeat) :
    t.groupWrite c p a bs = (t.trackedWrite c a bs).respond p [.done] := by
  unfold State.groupWrite
  simp only [h, hk, Bool.false_eq_true, if_false]

end

/-- No expiry is left to a group that its cycle has aborted (R88, R126). -/
theorem State.expire_of_aborted {s u : State} {c : CtxId} {code : AbortCode} {cause : Option Addr}
    {party : Option Party} (h : u.ctx c = (s.takeAbort c code cause party).ctx c) (e : Bool) : u.expire c e = u := by
  refine State.expire_of_not_open ?_ e
  rw [h, State.ctx_takeAbort, if_pos rfl]
  exact Context.afterAbort_not_opened _ _

/-- Settles O32, by lock, kind and direction. -/
theorem groupCyclesNotTracked : Obligations.GroupCyclesNotTracked := by
  refine ⟨fun s p a ens bs c hfree hc hopen hlocked => ⟨fun hl => ?_, fun hl hgood => ?_⟩,
    fun s t p a ens bs c hfree hc hopen hlocked hl hl' hgood ht => ⟨fun hk => ?_, fun hk he => ?_, fun hk he => ?_,
      fun hk => ?_, fun hk => ?_⟩, fun s l => ⟨s.commitLocked_iff l, fun p => s.lockedFor_iff p l⟩, State.sendRead_eq⟩
  all_goals have hlike := s.alike_begun p
  · rw [exec_memRead_of_open hfree hc hopen hl, State.groupRead_of_locked (by rwa [hlike.lockedFor])]
    rfl
  · rw [exec_memWrite_of_open hfree hc hopen hl hgood, State.groupWrite_of_locked (by rwa [hlike.lockedFor])]
    rfl
  all_goals
    rw [← ht] at hlike
    have hlocked' : t.lockedFor p (lineOf a) = false := by rwa [hlike.lockedFor]
    have hopen' : (t.ctx c).state = .opened := by rwa [hlike.state]
    have hk' := (hlike.kindOf (lineOf a)).trans hk
  · rw [exec_memRead_of_open hfree hc hopen hl, ← ht, State.groupRead_of_pass hlocked' hk']
    rfl
  · rw [exec_memWrite_of_open hfree hc hopen hl' hgood, ← ht, State.groupWrite_of_pass hlocked' hk',
      if_pos (by rwa [hlike.escape])]
  · rw [exec_memWrite_of_open hfree hc hopen hl' hgood, ← ht, State.groupWrite_of_pass hlocked' hk',
      if_neg (by simp [hlike.escape, he]), State.abort_open hopen', State.expire_respond_takeAbort]
    rfl
  · rw [exec_memRead_of_open hfree hc hopen hl, ← ht, State.groupRead_of_blocked hlocked' hk', State.abort_open hopen',
      State.expire_of_aborted (s := t) (code := .blocked) (cause := some a) (party := none)
        (by rw [State.answerBeats_eq]; rfl)]
    rfl
  · rw [exec_memWrite_of_open hfree hc hopen hl' hgood, ← ht, State.groupWrite_of_blocked hlocked' hk',
      State.abort_open hopen', State.expire_respond_takeAbort]
    rfl

end Sys2Proof.Machine
end

section
/-! The Staging Store takes the writes of a group (R57, R58, R59). -/

namespace Sys2Proof.Machine

theorem enablesNone_iff (bs : List WriteBeat) : enablesNone bs = true ↔ ∀ b ∈ bs, b.en = 0 := by
  simp [enablesNone]

/-- The lowest FREE slot is the one that is FREE with none FREE below it (R58). -/
theorem State.freeSlot_eq_some {s : State} {i : SlotId} (hi : s.slots[i] = none)
    (hlow : ∀ j : SlotId, j < i → s.slots[j] ≠ none) : s.freeSlot = some i := by
  have hat : (List.finRange 48)[i.val]? = some i := by simp
  refine List.find?_eq_some_iff_getElem.mpr ⟨by simp [hi], i, by simp, by simp, fun j hj => ?_⟩
  simpa [Option.isSome_iff_ne_none] using hlow ⟨j, by omega⟩ hj

theorem State.freeSlot_eq_none {s : State} (h : ∀ j : SlotId, s.slots[j] ≠ none) : s.freeSlot = none :=
  List.find?_eq_none.mpr fun j _ => by simpa using h j

section
variable {s : State} {c : CtxId} {a : Addr} {bs : List WriteBeat} (hsome : ¬ ∀ b ∈ bs, b.en = 0)
include hsome

/-- A write that enables a byte is taken by the group's slot for its line, or asks for a new one (R57, R58). -/
theorem State.stage_of_enabled : s.stage c a bs =
    (s.slotOf c (lineOf a)).elim
      (if (s.order c).length < s.caps.get c then
        s.freeSlot.elim (s.abort c .capacity (some a)) fun i => (s.allocate c (lineOf a) i).storeBytes i a bs
      else s.abort c .capacity (some a)) fun i => s.storeBytes i a bs := by
  rw [State.stage, if_neg (by rwa [enablesNone_iff])]
  cases s.slotOf c (lineOf a) with
  | some i => rfl
  | none => cases s.freeSlot <;> rfl

theorem State.stage_of_slot {i : SlotId} {b : SlotBody} (hi : s.slotOf c (lineOf a) = some i)
    (hb : s.slots[i] = some b) :
    s.stage c a bs = s.setSlot i (some { b with bytes := mergeBytes a bs b.bytes }) := by
  rw [State.stage_of_enabled hsome, hi]
  exact State.storeBytes_of_some hb a bs

variable (hnew : s.slotOf c (lineOf a) = none)
include hnew

theorem State.stage_of_free {i : SlotId} (hroom : (s.order c).length < s.caps.get c) (hi : s.freeSlot = some i) :
    s.stage c a bs = (s.setSlot i (some ⟨false, c, lineOf a, mergeBytes a bs (Vector.replicate 32 none)⟩)).setOrder c
      (s.order c ++ [i]) := by
  rw [State.stage_of_enabled hsome, hnew, Option.elim_none, if_pos hroom, hi]
  exact s.allocate_storeBytes c (lineOf a) i a bs

theorem State.stage_of_full (h : s.caps.get c ≤ (s.order c).length ∨ s.freeSlot = none) :
    s.stage c a bs = s.abort c .capacity (some a) none := by
  rw [State.stage_of_enabled hsome, hnew, Option.elim_none]
  split_ifs with hroom
  · rw [h.resolve_left (by omega), Option.elim_none]
  · rfl

end

/-! ### The bytes that a write leaves in a slot -/

theorem writtenAt_of_beat {a : Addr} {bs : List WriteBeat} {i n : Nat} {b : WriteBeat} (hb : bs[i]? = some b)
    (hn : n < 4) : writtenAt a bs (a.toNat % 32 + 4 * i + n) =
      if b.en.getLsbD n then some ⟨laneByte b.data n, b.par.getLsbD n⟩ else none := by
  rw [Nat.add_assoc]
  split_ifs with hen
  · exact writtenAt_of_enabled hb hn hen
  · have hi : (4 * i + n) / 4 = i := by omega
    have hm : (4 * i + n) % 4 = n := by omega
    simp [writtenAt, hi, hm, hb, hen]

theorem writtenAt_of_outside {a : Addr} {bs : List WriteBeat} {k : Nat}
    (h : k < a.toNat % 32 ∨ a.toNat % 32 + 4 * bs.length ≤ k) : writtenAt a bs k = none := by
  by_cases hlow : k < a.toNat % 32
  · exact if_pos hlow
  · have hbeat : bs[(k - a.toNat % 32) / 4]? = none := List.getElem?_eq_none (by omega)
    simp [writtenAt, hlow, hbeat]

/-- Settles O36, by what the write finds: no enabled byte, the group's slot, a FREE slot below the cap, or neither. -/
theorem stagingAndItsBytes : Obligations.StagingAndItsBytes := by
  refine ⟨fun s c a bs => ⟨fun hnone => if_pos ((enablesNone_iff bs).mpr hnone), fun hsome =>
    ⟨fun i b hi hb => State.stage_of_slot hsome hi hb, fun i hnew hroom hi hlow => ?_, fun hnew hfull => ?_⟩⟩,
    fun a bs old _ => ⟨fun i n b h hb hn => ?_, fun k hk => ?_⟩⟩
  · exact State.stage_of_free hsome hnew hroom (State.freeSlot_eq_some hi hlow)
  · exact State.stage_of_full hsome hnew (hfull.imp_right State.freeSlot_eq_none)
  · rw [getElem_mergeBytes, writtenAt_of_beat hb hn]
    split_ifs <;> rfl
  · rw [Fin.getElem_fin, getElem_mergeBytes, writtenAt_of_outside hk]
    rfl

end Sys2Proof.Machine
end

section
/-! Contests and the group writes to TRACKED lines (R31, R37, R38, R44). -/

namespace Sys2Proof.Machine

/-! ### Who beats whom -/

theorem State.beats_of_held {s : State} {x : CtxId} (hx : s.token = .held x) (h : CtxId) : s.beats x h = true :=
  if_pos hx

theorem State.beats_against_held {s : State} {x h : CtxId} (hne : x ≠ h) (hx : s.token = .held x) :
    s.beats h x = false := by
  rw [State.beats, if_neg (by simp [hx, hne]), if_pos hx]

theorem State.beats_of_no_token {s : State} {x h : CtxId} (hno : ∀ c, s.token = .held c → c ≠ x ∧ c ≠ h) :
    s.beats x h = decide (s.ages.idxOf x < s.ages.idxOf h) := by
  rw [State.beats, if_neg fun hx => (hno x hx).1 rfl, if_neg fun hh => (hno h hh).2 rfl, State.older]

/-- The positions of the first `x` and of the first `h` after it. -/
theorem idxOf_lt_of_before {x h : CtxId} {l m : List CtxId} (r : List CtxId) (hne : x ≠ h) (hl : h ∉ l) (hm : h ∉ m)
    (hx : x ∉ l) : (l ++ x :: m ++ h :: r).idxOf x < (l ++ x :: m ++ h :: r).idxOf h := by
  rw [List.append_assoc, List.cons_append, List.idxOf_append_of_notMem hx, List.idxOf_append_of_notMem hl,
    List.idxOf_cons_self, List.idxOf_cons_ne _ hne, List.idxOf_append_of_notMem hm]
  omega

/-! ### A group write to a TRACKED line -/

theorem State.boundsFull_iff (s : State) (c : CtxId) (l : Line) : s.boundsFull c l = true ↔
    s.inFootprint c l = false ∧ (s.ctx c).bounded = true ∧ 8 ≤ s.footprintSize c := by
  simp only [State.boundsFull, Bool.and_eq_true, Bool.not_eq_true', decide_eq_true_eq, and_assoc, and_left_comm]
  exact Iff.rfl

theorem State.inFootprint_iff (s : State) (c : CtxId) (l : Line) :
    s.inFootprint c l = true ↔ l ∈ s.reads c ∨ l ∈ s.writes c := by
  simp [State.inFootprint]

theorem State.writeRivals_eq (s : State) (c : CtxId) (l : Line) : s.writeRivals c l =
    four.filter (fun h => h ≠ c ∧ (s.ctx h).state = .opened ∧ s.inFootprint h l) := by
  rw [State.writeRivals, State.holders, List.filter_filter]
  exact List.filter_congr fun h _ => by simp

theorem all_beats_eq_false {s : State} {c h : CtxId} {rivals : List CtxId} (hr : h ∈ rivals)
    (hlost : s.beats c h = false) : ¬ rivals.all (s.beats c) = true := fun hall => by
  simp [List.all_eq_true.mp hall h hr] at hlost

section
variable {t : State} {c : CtxId} {a : Addr}

theorem State.trackedWrite_of_own (hown : lineOf a ∈ t.writes c) (bs : List WriteBeat) :
    t.trackedWrite c a bs = t.stage c a bs := if_pos (by simpa using hown)

variable (hown : lineOf a ∉ t.writes c)
include hown

theorem State.trackedWrite_of_bounds (hfull : t.boundsFull c (lineOf a) = true) (bs : List WriteBeat) :
    t.trackedWrite c a bs = t.abort c .bounds (some a) := by
  rw [State.trackedWrite]
  simp only [List.contains_iff_mem, hown, hfull, if_true, if_false]

variable (hroom : ¬ t.boundsFull c (lineOf a) = true)
include hroom

theorem State.trackedWrite_of_alone (hnone : t.writeRivals c (lineOf a) = []) (bs : List WriteBeat) :
    t.trackedWrite c a bs = t.stage c a bs := by
  rw [State.trackedWrite]
  simp only [List.contains_iff_mem, hown, hroom, hnone, List.isEmpty_nil, Bool.false_eq_true, if_true, if_false]

theorem State.trackedWrite_of_won (hsome : t.writeRivals c (lineOf a) ≠ [])
    (hwon : ∀ h ∈ t.writeRivals c (lineOf a), t.beats c h) (bs : List WriteBeat) :
    t.trackedWrite c a bs =
      (t.abortAll (t.writeRivals c (lineOf a)) .conflict (some a) (some (.ctx c))).stage c a bs := by
  rw [State.trackedWrite]
  simp only [List.contains_iff_mem, hown, hroom, List.isEmpty_iff, hsome, List.all_eq_true.mpr hwon,
    Bool.false_eq_true, if_true, if_false, State.contestWon]

theorem State.trackedWrite_of_lost {h : CtxId} (hr : h ∈ t.writeRivals c (lineOf a)) (hlost : t.beats c h = false)
    (bs : List WriteBeat) : t.trackedWrite c a bs =
      t.abort c .conflict (some a) ((t.contestWinner (t.writeRivals c (lineOf a))).map .ctx) := by
  rw [State.trackedWrite]
  simp only [List.contains_iff_mem, hown, hroom, List.isEmpty_iff, List.ne_nil_of_mem hr, all_beats_eq_false hr hlost,
    Bool.false_eq_true, if_false, State.contestLost]

end

/-- A group write to a TRACKED line, up to what it does to the line (R43, R44). -/
theorem exec_memWrite_of_tracked {s t : State} {p : PortId} {a : Addr} {bs : List WriteBeat} {c : CtxId}
    (hfree : s.free p) (hl : legalBurst a bs.length) (hgood : writeGood bs) (hc : s.serving p = c)
    (hopen : (s.ctx c).state = .opened) (hk : s.kindOf (lineOf a) = .tracked)
    (hlocked : s.lockedFor p (lineOf a) = false) (ht : t = (s.answered p []).counted p) :
    exec (.memWrite p a ⟨lenCode bs.length, bs⟩) s =
      .next (((t.trackedWrite c a bs).respond p [.done]).expire c (s.countExpires p)).settle := by
  have hlike := s.alike_begun p
  rw [← ht] at hlike
  rw [exec_memWrite_of_open hfree hc hopen hl hgood, ← ht,
    State.groupWrite_of_tracked (by rwa [hlike.lockedFor]) ((hlike.kindOf (lineOf a)).trans hk)]

/-- Settles O35: the write set, the bounds and the contest in their order, and who wins a contest. -/
theorem groupWriteToATrackedLine : Obligations.GroupWriteToATrackedLine := by
  refine ⟨fun s t p a bs c rivals done hfree hl hgood hc hopen hk hlocked ht hrivals hdone => ?_,
    fun s x h hne => ⟨fun hx => ⟨State.beats_of_held hx h, State.beats_against_held hne hx⟩,
      fun hno l m r hages hhl hhm hxl => ?_⟩, State.contestWinner_eq⟩
  · have hrun := exec_memWrite_of_tracked hfree hl hgood hc hopen hk hlocked ht
    have hlike := s.alike_begun p
    rw [← ht] at hlike
    have hopen' : (t.ctx c).state = .opened := by rwa [hlike.state]
    have hrivals' : t.writeRivals c (lineOf a) = rivals := by rw [hlike.writeRivals, State.writeRivals_eq, hrivals]
    rw [← hlike.writes c, hrun]
    refine ⟨fun hown => ?_, fun hout hbounded hsize => ?_, fun hown hroom =>
      ⟨fun hnone => ?_, fun hsome hwon => ?_, fun h hr hlost => ?_⟩⟩
    · rw [State.trackedWrite_of_own hown, hdone]
      rfl
    · have hown : lineOf a ∉ t.writes c := fun hmem => by
        simp [(s.inFootprint_iff c _).mpr (.inr (hlike.writes c ▸ hmem))] at hout
      rw [State.trackedWrite_of_bounds hown
          (by rw [hlike.boundsFull]; exact (s.boundsFull_iff c _).mpr ⟨hout, hbounded, hsize⟩),
        State.abort_open hopen', hdone]
      rfl
    all_goals
      rw [← State.boundsFull_iff, ← hlike.boundsFull] at hroom
    · rw [State.trackedWrite_of_alone hown hroom (hrivals'.trans hnone), hdone]
      rfl
    · rw [State.trackedWrite_of_won hown hroom (by rwa [hrivals'])
        (by simpa only [hrivals', hlike.beats] using hwon), hrivals', hdone]
      rfl
    · rw [State.trackedWrite_of_lost hown hroom (by rwa [hrivals']) (by rwa [hlike.beats]), hrivals',
        hlike.contestWinner, State.abort_open hopen', hdone]
      rfl
  · have hlt := idxOf_lt_of_before r hne hhl hhm hxl
    rw [State.beats_of_no_token hno, State.beats_of_no_token fun c hheld => (hno c hheld).symm, hages]
    exact ⟨decide_eq_true hlt, decide_eq_false (by omega)⟩

end Sys2Proof.Machine
end

section
/-! Group reads of TRACKED lines that are new to the group (R29, R31, R41). -/

namespace Sys2Proof.Machine

/-! ### Read sets -/

theorem State.joinReads_of_mem {s : State} {c : CtxId} {l : Line} (h : l ∈ s.reads c) : s.joinReads c l = s :=
  if_pos (by simpa using h)

theorem State.joinReads_of_new {s : State} {c : CtxId} {l : Line} (h : l ∉ s.reads c) :
    s.joinReads c l = s.setReads c (s.reads c ++ [l]) := if_neg (by simpa using h)

theorem State.readRivals_eq (s : State) (c : CtxId) (l : Line) : s.readRivals c l =
    four.filter (fun h => h ≠ c ∧ (s.ctx h).state = .opened ∧ l ∈ s.writes h) :=
  List.filter_congr fun h _ => by simp [Bool.and_assoc]

/-! ### What a read of a new line does before it goes to memory -/

section
variable {t : State} {c : CtxId} {a : Addr}

theorem State.newLineRead_of_bounds (hfull : t.boundsFull c (lineOf a) = true) :
    t.newLineRead c a = t.abort c .bounds (some a) := if_pos hfull

variable (hroom : ¬ t.boundsFull c (lineOf a) = true)
include hroom

theorem State.newLineRead_of_capacity (hfull : 24 ≤ (t.reads c).length) :
    t.newLineRead c a = t.abort c .capacity (some a) := by
  rw [State.newLineRead]
  simp only [if_neg hroom]
  exact if_pos hfull

/-- Below the bounds and the read limit, the contest decides (R41). -/
theorem State.newLineRead_of_room (hlen : (t.reads c).length < 24) : t.newLineRead c a =
    if t.readRivals c (lineOf a) = [] then t.joinReads c (lineOf a)
    else if ∀ h ∈ t.readRivals c (lineOf a), t.beats c h then
      (t.contestWon c (t.readRivals c (lineOf a)) a).joinReads c (lineOf a)
    else t.contestLost c (t.readRivals c (lineOf a)) a := by
  have hlen' : ¬ Config.readSetLimit ≤ (t.reads c).length := by
    rw [Config.readSetLimit]
    omega
  rw [State.newLineRead]
  simp only [if_neg hroom, if_neg hlen', List.isEmpty_iff, List.all_eq_true]

variable (hlen : (t.reads c).length < 24)
include hlen

theorem State.newLineRead_of_alone (hnew : lineOf a ∉ t.reads c) (hnone : t.readRivals c (lineOf a) = []) :
    t.newLineRead c a = t.setReads c (t.reads c ++ [lineOf a]) := by
  rw [State.newLineRead_of_room hroom hlen, if_pos hnone, State.joinReads_of_new hnew]

theorem State.newLineRead_of_won (hnew : lineOf a ∉ t.reads c) (hsome : t.readRivals c (lineOf a) ≠ [])
    (hwon : ∀ h ∈ t.readRivals c (lineOf a), t.beats c h) : t.newLineRead c a =
      (t.abortAll (t.readRivals c (lineOf a)) .conflict (some a) (some (.ctx c))).setReads c
        (t.reads c ++ [lineOf a]) := by
  obtain ⟨-, -, -, hreads, -⟩ :=
    t.contestWon_spec (fun h => ((t.mem_readRivals c c (lineOf a)).mp h).1 rfl) a
  rw [State.newLineRead_of_room hroom hlen, if_neg hsome, if_pos hwon,
    State.joinReads_of_new (by rwa [hreads]), hreads, State.contestWon]

theorem State.newLineRead_of_lost {h : CtxId} (hr : h ∈ t.readRivals c (lineOf a)) (hlost : t.beats c h = false) :
    t.newLineRead c a =
      t.abort c .conflict (some a) ((t.contestWinner (t.readRivals c (lineOf a))).map .ctx) := by
  rw [State.newLineRead_of_room hroom hlen, if_neg (List.ne_nil_of_mem hr),
    if_neg fun hall => by simp [hall h hr] at hlost, State.contestLost]

end

/-! ### Group reads of TRACKED lines -/

section
variable {t : State} {c : CtxId} {p : PortId} {a : Addr} (hlocked : t.lockedFor p (lineOf a) = false)
  (hk : t.kindOf (lineOf a) = .tracked)
include hlocked hk

theorem State.groupRead_of_slot {i : SlotId} (hi : t.slotOf c (lineOf a) = some i) (ens : List Lanes) :
    t.groupRead c p a ens = t.ownWriteRead c p a ens i := by
  unfold State.groupRead
  simp only [hlocked, hk, hi, Bool.false_eq_true, if_false]

variable (hi : t.slotOf c (lineOf a) = none)
include hi

theorem State.groupRead_of_joined (hmem : lineOf a ∈ t.reads c) (ens : List Lanes) :
    t.groupRead c p a ens = t.sendRead p 1 a (plainBeats ens) (some c) := by
  unfold State.groupRead
  simp only [hlocked, hk, hi, Bool.false_eq_true, if_false, List.contains_iff_mem, hmem, if_true]

theorem State.groupRead_of_new (hnew : lineOf a ∉ t.reads c) (ens : List Lanes) :
    t.groupRead c p a ens = (t.newLineRead c a).sendRead p 1 a (plainBeats ens) (some c) := by
  unfold State.groupRead
  simp only [hlocked, hk, hi, Bool.false_eq_true, if_false, List.contains_iff_mem, hnew]

end

theorem State.slotOf_eq_none_iff (s : State) (c : CtxId) (l : Line) : s.slotOf c l = none ↔ l ∉ s.writes c := by
  rw [← s.slotOf_isSome_iff, Option.not_isSome_iff_eq_none]

/-- Settles O34: the bounds, the read limit and the contest in their order, and what the words of the claim mean. -/
theorem groupReadOfANewLine : Obligations.GroupReadOfANewLine := by
  refine ⟨fun s t p a ens c rivals go hfree hl hc hopen hk hlocked hout ht hrivals hgo => ?_,
    fun s c => ⟨fun l => ⟨s.mem_writes c l, s.inFootprint_iff c l, ?_⟩, s.footprintSize_eq c⟩⟩
  · have hlike := s.alike_begun p
    rw [← ht] at hlike
    have hopen' : (t.ctx c).state = .opened := by rwa [hlike.state]
    have hout' := (t.inFootprint_iff c (lineOf a)).not.mp (by simpa [hlike.inFootprint] using hout)
    obtain ⟨hnew, hunstaged⟩ := not_or.mp hout'
    have hrun : exec (.memRead p a ens) s = go (t.newLineRead c a) := by
      rw [exec_memRead_of_open hfree hc hopen hl, ← ht,
        State.groupRead_of_new (by rwa [hlike.lockedFor]) ((hlike.kindOf (lineOf a)).trans hk)
          ((t.slotOf_eq_none_iff c _).mpr hunstaged) hnew, hgo]
      rfl
    have hrivals' : t.readRivals c (lineOf a) = rivals := by rw [hlike.readRivals, State.readRivals_eq, hrivals]
    have hbounds : t.boundsFull c (lineOf a) = true ↔ (s.ctx c).bounded = true ∧ 8 ≤ s.footprintSize c := by
      rw [hlike.boundsFull, s.boundsFull_iff, and_iff_right hout]
    rw [hrun, ← hbounds, ← hlike.reads c]
    refine ⟨fun hbounded hsize => ?_, fun hroom hfull => ?_, fun hroom hlen =>
      ⟨fun hnone => ?_, fun hsome hwon => ?_, fun h hr hlost => ?_⟩⟩
    · rw [State.newLineRead_of_bounds (hbounds.mpr ⟨hbounded, hsize⟩), State.abort_open hopen']
    · rw [State.newLineRead_of_capacity hroom hfull, State.abort_open hopen']
    · rw [State.newLineRead_of_alone hroom hlen hnew (hrivals'.trans hnone)]
    · rw [State.newLineRead_of_won hroom hlen hnew (by rwa [hrivals'])
        (by simpa only [hrivals', hlike.beats] using hwon), hrivals']
    · rw [State.newLineRead_of_lost hroom hlen (by rwa [hrivals']) (by rwa [hlike.beats]), hrivals',
        hlike.contestWinner, State.abort_open hopen']
  · rw [State.mem_holders, s.inFootprint_iff]

end Sys2Proof.Machine
end

section
/-! Group reads of TRACKED lines of the group's footprint (R40, R61, R62, R63, R65). -/

namespace Sys2Proof.Machine

/-! ### The beats of a forwarded read -/

/-- A word is its four lane bytes. -/
theorem eq_of_laneByte {v w : Word} (h : ∀ n < 4, laneByte v n = laneByte w n) : v = w := by
  refine BitVec.eq_of_getLsbD_eq fun i hi => ?_
  have hbit := congrArg (fun x : Byte => x.getLsbD (i % 8)) (h (i / 8) (by omega))
  have hlane : i % 8 < 8 := by omega
  simpa [laneByte, hlane, Nat.div_add_mod] using hbit

/-- No beat of a burst within its line wraps round the address space (R57). -/
theorem byteOffset_eq {a : Addr} {j : Nat} (h : a.toNat % 32 + 4 * j < 32) (n : Nat) :
    byteOffset a j n = a.toNat % 32 + 4 * j + n := by
  rw [byteOffset, beatAddr, BitVec.toNat_add, BitVec.toNat_ofNat]
  omega

/-- The beats of a read from what each of them takes from the slot. -/
def slotBeats (ens : List Lanes) (good : Nat → Bool) (staged : Nat → Lanes) (data : Nat → Word) : List ReadBeat :=
  ens.mapIdx fun j e => ⟨e, staged j, data j, !good j⟩

section
variable {a : Addr} {ens : List Lanes} {b : SlotBody} {byte : Nat → Nat → Option StoredByte} {good : Nat → Bool}
  {staged : Nat → Lanes} {data : Nat → Word}

theorem length_slotBeats : (slotBeats ens good staged data).length = ens.length := List.length_mapIdx

theorem getElem_slotBeats {j : Nat} (h : j < (slotBeats ens good staged data).length) :
    (slotBeats ens good staged data)[j] = ⟨ens[j]'(length_slotBeats ▸ h), staged j, data j, !good j⟩ :=
  List.getElem_mapIdx ..

/-- A beat takes the written bytes of its enabled lanes, and fails when one of them does (R61, R65). -/
theorem SlotBody.readBeats_eq (hl : legalBurst a ens.length)
    (hbyte : ∀ j n, byte j n = if (ens.getD j 0).getLsbD n then b.byteAt (a.toNat % 32 + 4 * j + n) else none)
    (hgood : ∀ j, good j = (List.range 4).all fun n => (byte j n).all fun x => byteParity x.val == x.par)
    (hlanes : ∀ j n, n < 4 → (staged j).getLsbD n = (byte j n).isSome ∧
      laneByte (data j) n = (byte j n).elim 0 StoredByte.val) :
    b.readBeats a ens = slotBeats ens good staged data := by
  refine List.ext_getElem (by rw [SlotBody.readBeats, List.length_mapIdx, length_slotBeats]) fun j hj hj' => ?_
  have hlen : j < ens.length := length_slotBeats ▸ hj'
  have hline := legalBurst_in_line hl
  have htaken : ∀ n, (if ens[j].getLsbD n then b.byteAt (byteOffset a j n) else none) = byte j n := fun n => by
    rw [hbyte, byteOffset_eq (by omega), List.getD_eq_getElem _ _ hlen]
  have hat : (b.readBeats a ens)[j] = b.readBeat a j ens[j] := List.getElem_mapIdx ..
  rw [getElem_slotBeats hj', hat, SlotBody.readBeat]
  simp only [htaken, ReadBeat.mk.injEq, true_and]
  refine ⟨BitVec.eq_of_getLsbD_eq fun n hn => ?_, eq_of_laneByte fun n hn => ?_, ?_⟩
  · rw [getLsbD_laneBits _ hn, (hlanes j n hn).1]
  · rw [laneByte_laneWord _ hn, (hlanes j n hn).2]
  · rw [hgood, List.not_all_eq_any_not]
    refine congrArg (List.any [0, 1, 2, 3]) (funext fun n => ?_)
    cases byte j n <;> rfl

theorem any_failed_slotBeats : (slotBeats ens good staged data).any ReadBeat.failed = true ↔
    ¬ ∀ k < ens.length, good k = true := by
  simp [List.any_eq_true, List.mem_iff_getElem, slotBeats]

theorem all_staged_slotBeats : ((slotBeats ens good staged data).all fun r => r.staged == r.en) = true ↔
    ∀ k < ens.length, staged k = ens.getD k 0 := by
  rw [List.all_eq_true, List.forall_mem_iff_forall_getElem]
  refine forall_congr' fun k => ?_
  simp only [getElem_slotBeats, length_slotBeats, beq_iff_eq]
  exact forall_congr' fun hk => by rw [List.getD_eq_getElem _ _ hk]

/-- The first failed beat (R65). -/
theorem findIdx_failed_slotBeats (hbad : ¬ ∀ k < ens.length, good k = true) :
    ∃ k < ens.length, good k = false ∧ (∀ j < k, good j) ∧
      (slotBeats ens good staged data).findIdx ReadBeat.failed = k := by
  have hlt := List.findIdx_lt_length.mpr (List.any_eq_true.mp (any_failed_slotBeats (staged := staged)
    (data := data).mpr hbad))
  have hlt' := length_slotBeats ▸ hlt
  refine ⟨_, hlt', ?_, fun j hj => ?_, rfl⟩
  · simpa [getElem_slotBeats] using List.findIdx_getElem (w := hlt)
  · simpa [getElem_slotBeats] using List.not_of_lt_findIdx hj

theorem map_unstaged_slotBeats : ((slotBeats ens good staged data).map fun r => { r with staged := 0, data := 0 }) =
    ens.mapIdx fun j e => ⟨e, 0, 0, !good j⟩ :=
  List.ext_getElem (by simp [length_slotBeats]) fun j _ _ => by simp [getElem_slotBeats]

theorem map_word_slotBeats : ((slotBeats ens good staged data).map fun r => Answer.word r.data) =
    (List.range ens.length).map fun j => .word (data j) :=
  List.ext_getElem (by simp [length_slotBeats]) fun j _ _ => by simp [getElem_slotBeats]

theorem slotBeats_of_good (hall : ∀ k < ens.length, good k = true) :
    slotBeats ens good staged data = ens.mapIdx fun j e => ⟨e, staged j, data j, false⟩ :=
  List.ext_getElem (by simp [length_slotBeats]) fun j hj _ => by
    rw [getElem_slotBeats hj, hall j (length_slotBeats ▸ hj), List.getElem_mapIdx, Bool.not_true]

/-! ### Forwarding -/

variable {s : State} {c : CtxId} {p : PortId} (hbeats : b.readBeats a ens = slotBeats ens good staged data)
include hbeats

/-- A staged byte with a storage error: MEMERR at the first bad beat, the bad beats read from memory as ERROR (R65). -/
theorem State.forward_of_bad (hopen : (s.ctx c).state = .opened) (hbad : ¬ ∀ k < ens.length, good k = true) :
    ∃ k < ens.length, good k = false ∧ (∀ j < k, good j) ∧ s.forward c p a ens b =
      (s.takeAbort c .memerr (some (a + BitVec.ofNat 28 (4 * k))) none).sendRead p 1 a
        (ens.mapIdx fun j e => ⟨e, 0, 0, !good j⟩) none := by
  obtain ⟨k, hk, hgood, hfirst, hidx⟩ := findIdx_failed_slotBeats (staged := staged) (data := data) hbad
  refine ⟨k, hk, hgood, hfirst, ?_⟩
  rw [State.forward]
  simp only [hbeats, any_failed_slotBeats.mpr hbad, if_true]
  rw [State.forwardFailed, hidx, map_unstaged_slotBeats, State.abort_open hopen]
  rfl

variable (hall : ∀ k < ens.length, good k = true)
include hall

theorem State.forward_of_covered (hcover : ∀ k < ens.length, staged k = ens.getD k 0) : s.forward c p a ens b =
    s.answerBeats p 1 a ((List.range ens.length).map fun j => .word (data j)) := by
  rw [State.forward]
  simp only [hbeats, any_failed_slotBeats.not_left.mpr hall, all_staged_slotBeats.mpr hcover, map_word_slotBeats,
    Bool.false_eq_true, if_true, if_false]

theorem State.forward_of_merged (hmerge : ¬ ∀ k < ens.length, staged k = ens.getD k 0) : s.forward c p a ens b =
    s.sendRead p 1 a (ens.mapIdx fun j e => ⟨e, staged j, data j, false⟩) (some c) := by
  rw [State.forward]
  simp only [hbeats, any_failed_slotBeats.not_left.mpr hall, all_staged_slotBeats.not.mpr hmerge,
    Bool.false_eq_true, if_false]
  rw [slotBeats_of_good hall]

end

/-! ### Reads of the group's own writes -/

section
variable {t : State} {c : CtxId} {p : PortId} {a : Addr} {i : SlotId}

theorem State.readSetFull_iff (t : State) (c : CtxId) (l : Line) :
    (!(t.reads c).contains l && decide (Config.readSetLimit ≤ (t.reads c).length)) = true ↔
      l ∉ t.reads c ∧ 24 ≤ (t.reads c).length := by
  rw [Bool.and_eq_true, Bool.not_eq_true', decide_eq_true_eq, ← Bool.not_eq_true, List.contains_iff_mem]
  exact Iff.rfl

theorem State.ownWriteRead_of_capacity (hnew : lineOf a ∉ t.reads c) (hfull : 24 ≤ (t.reads c).length)
    (ens : List Lanes) : t.ownWriteRead c p a ens i =
      (t.abort c .capacity (some a)).sendRead p 1 a (plainBeats ens) none :=
  if_pos ((t.readSetFull_iff c _).mpr ⟨hnew, hfull⟩)

theorem State.ownWriteRead_of_room (hroom : lineOf a ∈ t.reads c ∨ (t.reads c).length < 24) {b : SlotBody}
    (hb : t.slots[i] = some b) (ens : List Lanes) : t.ownWriteRead c p a ens i =
      (t.joinReads c (lineOf a)).forward c p a ens b := by
  have hfits := (t.readSetFull_iff c (lineOf a)).not.mpr fun ⟨hnew, hfull⟩ => (hroom.resolve_left hnew).not_ge hfull
  rw [State.ownWriteRead]
  simp only [if_neg hfits, hb]

end

/-- The group that a read has aborted has no expiry left when the read goes to memory untracked (R88, R126). -/
theorem State.expire_sendRead_takeAbort (s : State) (c : CtxId) (code : AbortCode) (cause : Option Addr) (p : PortId)
    (a : Addr) (beats : List ReadBeat) (e : Bool) :
    ((s.takeAbort c code cause none).sendRead p 1 a beats none).expire c e =
      (s.takeAbort c code cause none).sendRead p 1 a beats none := by
  refine State.expire_of_aborted (s := s) (code := code) (cause := cause) (party := none) ?_ e
  rfl

/-- Settles O33: not staged, the read goes to memory; staged, it joins the read set and is forwarded. -/
theorem groupReadInTheFootprint : Obligations.GroupReadInTheFootprint := by
  intro s t p a ens c byte good staged data hfree hl hc hopen hk hlocked ht
  have hlike := s.alike_begun p
  rw [← ht] at hlike
  have hopen' : (t.ctx c).state = .opened := by rwa [hlike.state]
  have hlocked' : t.lockedFor p (lineOf a) = false := by rwa [hlike.lockedFor]
  have hk' := (hlike.kindOf (lineOf a)).trans hk
  have hrun := exec_memRead_of_open hfree hc hopen hl (ens := ens)
  rw [← ht] at hrun
  rw [← hlike.reads c]
  refine ⟨fun hi hmem => ?_, fun i b hi hb hbyte hgood hlanes => ?_⟩
  · rw [hrun, State.groupRead_of_joined hlocked' hk' ((hlike.slotOf c _).trans hi) hmem]
    rfl
  rw [hrun, State.groupRead_of_slot hlocked' hk' ((hlike.slotOf c _).trans hi)]
  refine ⟨fun hnew hfull => ?_, fun u hu => ?_⟩
  · rw [State.ownWriteRead_of_capacity hnew hfull, State.abort_open hopen', State.expire_sendRead_takeAbort]
    rfl
  have hroom : lineOf a ∈ t.reads c ∨ (t.reads c).length < 24 := hu.imp And.left fun h => h.2.1
  have hjoined : t.joinReads c (lineOf a) = u := by
    rcases hu with ⟨hmem, rfl⟩ | ⟨hnew, -, rfl⟩
    · exact State.joinReads_of_mem hmem
    · exact State.joinReads_of_new hnew
  have hu' : (u.ctx c).state = .opened := by
    rcases hu with ⟨-, rfl⟩ | ⟨-, -, rfl⟩ <;> exact hopen'
  have hbeats := SlotBody.readBeats_eq hl hbyte hgood hlanes
  rw [State.ownWriteRead_of_room hroom (by rwa [hlike.slots]), hjoined]
  by_cases hall : ∀ k < ens.length, good k = true
  · refine .inr ⟨hall, fun hcover => ?_, fun hmerge => ?_⟩
    · rw [State.forward_of_covered hbeats hall hcover]
    · rw [State.forward_of_merged hbeats hall hmerge]
  · obtain ⟨k, hk, hbad, hfirst, hforward⟩ := State.forward_of_bad (p := p) hbeats hu' hall
    refine .inl ⟨k, hk, hbad, hfirst, ?_⟩
    rw [hforward, State.expire_sendRead_takeAbort]

end Sys2Proof.Machine
end
